-- ==== Sys2Proof/Word.lean ====
section
/-! DEFINITION. The block's one machine word: a byte, an unsigned 8-bit value (00_scope.md R12). -/

namespace Sys2Proof

/-- A byte: bit 7 is the most significant bit, bit 0 the least (00_scope.md R12). -/
abbrev Byte := BitVec 8

end Sys2Proof
end

