-- ==== Sys2Proof/Config.lean ====
section
/-! DEFINITION. The implementation parameters of 00_scope.md R9 that a running block keeps reading.
The source fixes none of them, so the machine carries them as plain data (`State.cfg`) and every
statement over all states holds for every value of every parameter (log entry 1).
`FB_POWERON` is the argument of `State.powerOn`; `RX_FILL` comes with each delivery. -/

namespace Sys2Proof

/-- The parameters of 00_scope.md R9, fixed for the life of a block (10_state.md R32). -/
structure Config where
  /-- `OP_ID`: opcode byte of ID. -/
  opId : Byte
  /-- `OP_RESET`: opcode byte of RESET. -/
  opReset : Byte
  /-- `OP_GBREAD`: opcode byte of GBREAD. -/
  opGbRead : Byte
  /-- `OP_GBWRITE`: opcode byte of GBWRITE. -/
  opGbWrite : Byte
  /-- `CRC_TABLE`: the 256 entries of the substitution table (10_state.md R27), entry 0 first. -/
  crcTable : List Byte
  /-- `CRC_INIT`: the starting accumulator of the CRC fold. -/
  crcInit : Byte
  /-- `MAX_RX_BITS`: the most bits one receive may deliver. -/
  maxRxBits : Nat
  deriving DecidableEq, Repr

end Sys2Proof
end

