-- ==== Sys2Proof/Machine/Bits.lean ====
section
/-! DEFINITION. Bits and bytes of a frame. Frames and replies travel most-significant bit first
(20_memory.md R56); frame byte j is frame bits 8j to 8j + 7, bit 8j being the byte's bit 7
(00_scope.md R13). -/

namespace Sys2Proof

/-- The byte whose bits, most significant first, are `bits` (00_scope.md R13). -/
def byteOfBits (bits : List Bool) : Byte :=
  BitVec.ofNat 8 (bits.foldl (fun acc b => 2 * acc + b.toNat) 0)

/-- The eight bits of a byte in wire order, bit 7 first (20_memory.md R56). -/
def bitsOfByte (b : Byte) : List Bool :=
  [b.getMsbD 0, b.getMsbD 1, b.getMsbD 2, b.getMsbD 3,
   b.getMsbD 4, b.getMsbD 5, b.getMsbD 6, b.getMsbD 7]

/-- A byte string in wire order (20_memory.md R51, R56). -/
def bitsOfBytes (bs : List Byte) : List Bool := bs.flatMap bitsOfByte

/-- Frame byte `j` of a frame, for `8j + 7` inside the frame (00_scope.md R13). -/
def frameByte (frame : List Bool) (j : Nat) : Byte :=
  byteOfBits ((frame.drop (8 * j)).take 8)

/-- The byte a receive leaves at offset `j` (20_memory.md R49): the bit at place `i` from bit 7 down
is frame bit `8j + i` where the frame has that bit, and the draw's bit at the same place where the
frame fills the byte only partly. -/
def receivedByte (frame : List Bool) (fill : Byte) (j : Nat) : Byte :=
  byteOfBits ((List.range 8).map fun i => frame.getD (8 * j + i) (fill.getMsbD i))

/-- The number of bytes a frame of `n` bits reaches: the ceiling of n / 8 (20_memory.md R50). -/
def bytesReached (n : Nat) : Nat := (n + 7) / 8

/-- The bytes a receive writes, offset 0 first (20_memory.md R49, R50). -/
def receivedBytes (frame : List Bool) (fill : Byte) : List Byte :=
  (List.range (bytesReached frame.length)).map (receivedByte frame fill)

end Sys2Proof
end

