-- ==== Sys2Proof/Syntax.lean ====
section
/-! DEFINITION. The commands: one constructor for each of the 14 decode rows of 30_encoding.md R66
(spec/opcode_table.json), with the fields of the row's frame format (R61 to R64) as arguments.
A row that the frame's length alone selects carries the frame's bits in wire order (00_scope.md R13).
`t` is always the trailing bit, `b2` frame byte 2, `d` the 32 payload bytes, `sub` the sub-opcode. -/

namespace Sys2Proof

/-- A decoded command frame: exactly one row of 30_encoding.md R66. -/
inductive Instr where
  /-- Row 1, SHORT: fewer than 9 bits (41_dispatch.md R92). -/
  | short (bits : List Bool)
  /-- Row 2, ID: format F9 (42_id_reset.md R110). -/
  | id (t : Bool)
  /-- Row 3, RESET: format F9 (42_id_reset.md R111). -/
  | reset (t : Bool)
  /-- Row 4, ID or RESET at a wrong length (42_id_reset.md R112). -/
  | idResetWrongLength (bits : List Bool)
  /-- Row 5, GBREAD C0: format F25 (43_gbread.md R120). -/
  | gbreadC0 (b2 : Byte) (t : Bool)
  /-- Row 6, GBREAD F0: format F25 (43_gbread.md R121). -/
  | gbreadF0 (b2 : Byte) (t : Bool)
  /-- Row 7, GBREAD with another sub-opcode: format F25 (43_gbread.md R122). -/
  | gbreadOther (sub b2 : Byte) (t : Bool)
  /-- Row 8, GBREAD at a wrong length (43_gbread.md R123). -/
  | gbreadWrongLength (bits : List Bool)
  /-- Row 9, GBWRITE 80, Initialization: format F281 (44_gbwrite.md R131). -/
  | gbwriteInit (b2 : Byte) (d : List Byte) (t : Bool)
  /-- Row 10, GBWRITE C0, Configuration: format F281 (44_gbwrite.md R132). -/
  | gbwriteConfig (b2 : Byte) (d : List Byte) (t : Bool)
  /-- Row 11, GBWRITE E0, Data send: format F281 (44_gbwrite.md R133). -/
  | gbwriteSend (b2 : Byte) (d : List Byte) (t : Bool)
  /-- Row 12, GBWRITE with another sub-opcode: format F281 (44_gbwrite.md R134). -/
  | gbwriteOther (sub b2 : Byte) (d : List Byte) (t : Bool)
  /-- Row 13, GBWRITE at a wrong length (44_gbwrite.md R135). -/
  | gbwriteWrongLength (bits : List Bool)
  /-- Row 14, an unrecognised opcode (41_dispatch.md R94). -/
  | unrecognised (bits : List Bool)
  deriving DecidableEq, Repr

end Sys2Proof
end

