-- ==== Sys2Proof/WellFormed.lean ====
section
/-! DEFINITION. Which parameters a block may have (00_scope.md R9, R10) and which commands are frames of
their row (30_encoding.md R66). -/

namespace Sys2Proof

/-- 00_scope.md R10 (a) and (b): GBREAD and GBWRITE differ from each other and from ID and RESET.
ID and RESET may be equal (R10 (c)). -/
def Config.opcodesDistinct (c : Config) : Bool :=
  c.opGbRead != c.opGbWrite && c.opGbRead != c.opId && c.opGbRead != c.opReset &&
    c.opGbWrite != c.opId && c.opGbWrite != c.opReset

/-- The sizes of 00_scope.md R9 and R11: 256 table entries, and 281 to 1024 receivable bits. -/
def Config.sizesOk (c : Config) : Bool :=
  c.crcTable.length == 256 && decide (281 ≤ c.maxRxBits) && decide (c.maxRxBits ≤ 1024)

/-- A configuration that a model must accept (00_scope.md R9, R10). -/
def Config.valid (c : Config) : Bool := c.opcodesDistinct && c.sizesOk

/-- A command that is a frame of its own row of 30_encoding.md R66, no longer than a receive delivers
(20_memory.md R49). A RESET whose opcode equals ID's is row 2 and not row 3, since rows are checked in
order and the two "cannot be told apart" (00_scope.md R10 (c); log entry 16). -/
def Instr.wellFormed (c : Config) : Instr → Bool
  | .short bits => decide (bits.length < 9)
  | .id _ => true
  | .reset _ => c.opReset != c.opId
  | .idResetWrongLength bits =>
    decide (9 < bits.length) && decide (bits.length ≤ c.maxRxBits) &&
      (frameByte bits 0 == c.opId || frameByte bits 0 == c.opReset)
  | .gbreadC0 _ _ => true
  | .gbreadF0 _ _ => true
  | .gbreadOther sub _ _ => sub != 0xC0 && sub != 0xF0
  | .gbreadWrongLength bits =>
    decide (9 ≤ bits.length) && bits.length != 25 && decide (bits.length ≤ c.maxRxBits) &&
      frameByte bits 0 == c.opGbRead
  | .gbwriteInit _ d _ => d.length == 32
  | .gbwriteConfig _ d _ => d.length == 32
  | .gbwriteSend _ d _ => d.length == 32
  | .gbwriteOther sub _ d _ => sub != 0x80 && sub != 0xC0 && sub != 0xE0 && d.length == 32
  | .gbwriteWrongLength bits =>
    decide (9 ≤ bits.length) && bits.length != 281 && decide (bits.length ≤ c.maxRxBits) &&
      frameByte bits 0 == c.opGbWrite
  | .unrecognised bits =>
    decide (9 ≤ bits.length) && decide (bits.length ≤ c.maxRxBits) &&
      frameByte bits 0 != c.opId && frameByte bits 0 != c.opReset &&
      frameByte bits 0 != c.opGbRead && frameByte bits 0 != c.opGbWrite

/-- The bit count of a command's frame: its format's (30_encoding.md R61 to R63), or that of the frame it
carries. -/
def Instr.frameLength : Instr → Nat
  | .short bits => bits.length
  | .id _ => 9
  | .reset _ => 9
  | .idResetWrongLength bits => bits.length
  | .gbreadC0 _ _ => 25
  | .gbreadF0 _ _ => 25
  | .gbreadOther _ _ _ => 25
  | .gbreadWrongLength bits => bits.length
  | .gbwriteInit _ _ _ => 281
  | .gbwriteConfig _ _ _ => 281
  | .gbwriteSend _ _ _ => 281
  | .gbwriteOther _ _ _ _ => 281
  | .gbwriteWrongLength bits => bits.length
  | .unrecognised bits => bits.length

end Sys2Proof
end

