-- ==== Sys2Proof/Decode.lean ====
section
/-! DEFINITION. The decoder of 30_encoding.md R66, the encoder written from the same formats, and the
opcode table's numbering of a frame. The decoder is total: the block decodes every frame into exactly one
row (R66) and no encoding is rejected (R68). -/

namespace Sys2Proof

/-- The payload bytes of a GBWRITE frame: frame bytes 3 to 34 (30_encoding.md R63, R64). -/
def framePayload (frame : List Bool) : List Byte :=
  (List.range 32).map fun i => frameByte frame (3 + i)

/-- Rows 5 to 8: a frame whose opcode is GBREAD's (43_gbread.md, ExecGbRead). -/
def decodeGbRead (frame : List Bool) : Instr :=
  if frame.length = 25 then
    if frameByte frame 1 = 0xC0 then .gbreadC0 (frameByte frame 2) (frame.getD 24 false)
    else if frameByte frame 1 = 0xF0 then .gbreadF0 (frameByte frame 2) (frame.getD 24 false)
    else .gbreadOther (frameByte frame 1) (frameByte frame 2) (frame.getD 24 false)
  else .gbreadWrongLength frame

/-- Rows 9 to 13: a frame whose opcode is GBWRITE's (44_gbwrite.md, ExecGbWrite). -/
def decodeGbWrite (frame : List Bool) : Instr :=
  if frame.length = 281 then
    if frameByte frame 1 = 0x80 then
      .gbwriteInit (frameByte frame 2) (framePayload frame) (frame.getD 280 false)
    else if frameByte frame 1 = 0xC0 then
      .gbwriteConfig (frameByte frame 2) (framePayload frame) (frame.getD 280 false)
    else if frameByte frame 1 = 0xE0 then
      .gbwriteSend (frameByte frame 2) (framePayload frame) (frame.getD 280 false)
    else .gbwriteOther (frameByte frame 1) (frameByte frame 2) (framePayload frame) (frame.getD 280 false)
  else .gbwriteWrongLength frame

/-- The row of 30_encoding.md R66 that a frame of `frame.length` bits is, the checks in the order of
41_dispatch.md R91 and R98. -/
def decode (c : Config) (frame : List Bool) : Instr :=
  if frame.length < 9 then .short frame
  else if frameByte frame 0 = c.opId ∨ frameByte frame 0 = c.opReset then
    if frame.length = 9 then
      if frameByte frame 0 = c.opId then .id (frame.getD 8 false) else .reset (frame.getD 8 false)
    else .idResetWrongLength frame
  else if frameByte frame 0 = c.opGbRead then decodeGbRead frame
  else if frameByte frame 0 = c.opGbWrite then decodeGbWrite frame
  else .unrecognised frame

/-- A frame of whole bytes and a trailing bit (30_encoding.md R61 to R63, R70). -/
def encodeFrame (bytes : List Byte) (t : Bool) : List Bool := bitsOfBytes bytes ++ [t]

/-- `ID` (30_encoding.md R70): the opcode and the trailing bit, which is 1 when not written. -/
def idFrame (c : Config) (t : Bool := true) : List Bool := encodeFrame [c.opId] t

/-- `RESET` (30_encoding.md R70). -/
def resetFrame (c : Config) (t : Bool := true) : List Bool := encodeFrame [c.opReset] t

/-- `GBREAD s, b` (30_encoding.md R70): `b` is 0x00 when not written. -/
def gbreadFrame (c : Config) (s : Byte) (b : Byte := 0x00) (t : Bool := true) : List Bool :=
  encodeFrame [c.opGbRead, s, b] t

/-- `GBWRITE s, b, {d0 … d31}` (30_encoding.md R70). -/
def gbwriteFrame (c : Config) (s b : Byte) (d : List Byte) (t : Bool := true) : List Bool :=
  encodeFrame (c.opGbWrite :: s :: b :: d) t

/-- `RAW n, …` (30_encoding.md R70): the bytes' bits, most significant first, truncated or padded to `n`.
R70 does not say with what: the padding is zeros, DESIGN CHOICE, safe (log entry 22). -/
def rawFrame (n : Nat) (bytes : List Byte) : List Bool :=
  (bitsOfBytes bytes ++ List.replicate n false).take n

/-- The frame of a command, in wire order (30_encoding.md R61 to R63, R70). -/
def encode (c : Config) : Instr → List Bool
  | .short bits => bits
  | .id t => idFrame c t
  | .reset t => resetFrame c t
  | .idResetWrongLength bits => bits
  | .gbreadC0 b2 t => gbreadFrame c 0xC0 b2 t
  | .gbreadF0 b2 t => gbreadFrame c 0xF0 b2 t
  | .gbreadOther sub b2 t => gbreadFrame c sub b2 t
  | .gbreadWrongLength bits => bits
  | .gbwriteInit b2 d t => gbwriteFrame c 0x80 b2 d t
  | .gbwriteConfig b2 d t => gbwriteFrame c 0xC0 b2 d t
  | .gbwriteSend b2 d t => gbwriteFrame c 0xE0 b2 d t
  | .gbwriteOther sub b2 d t => gbwriteFrame c sub b2 d t
  | .gbwriteWrongLength bits => bits
  | .unrecognised bits => bits

/-- The exact length 41_dispatch.md R95 gives an opcode, and `other` for an unrecognised one. -/
def requiredLength (c : Config) (op : Byte) (other : Nat) : Nat :=
  if op = c.opId ∨ op = c.opReset then 9
  else if op = c.opGbRead then 25
  else if op = c.opGbWrite then 281
  else other

/-- The bytes of a table word in frame order. spec/opcode_table.json numbers a frame by 16-bit words
`FB[0]<<8 | FB[1]`, so frame byte 2k is bits 16k + 15 to 16k + 8 and frame byte 2k + 1 is bits 16k + 7 to 16k. -/
def tableBytes (nbits w : Nat) : List Byte :=
  (List.range (2 * ((nbits + 15) / 16))).map fun j =>
    BitVec.ofNat 8 (w >>> (16 * (j / 2) + 8 * ((j + 1) % 2)))

/-- The frame that a table word stands for at the default parameters (log entry 14). The table gives a
frame's length no bits: up to 8 bits are a whole frame of that many bits, and a longer word is the first
bits of a frame of the length its opcode requires (41_dispatch.md R95), zeros above the word. -/
def tableFrame (nbits w : Nat) : List Bool :=
  if nbits ≤ 8 then rawFrame nbits [BitVec.ofNat 8 w]
  else
    let bytes := tableBytes nbits w
    rawFrame (requiredLength Config.default (bytes.getD 0 0) (min nbits Config.default.maxRxBits)) bytes

/-- The command the decoder reads from a word of spec/opcode_table.json, at the default parameters. -/
def decodeTableWord (nbits w : Nat) : Option Instr :=
  some (decode Config.default (tableFrame nbits w))

end Sys2Proof
end

