-- ==== Sys2Proof/Machine/State.lean ====
section
/-! DEFINITION. The machine's state as plain data (10_state.md R21), its faults and refusals, and the
state after power-on. -/

namespace Sys2Proof.Machine

/-- The Dispatcher's control state, in the program counter's place (10_state.md R22). -/
inductive Phase where
  /-- Hardware initialisation has not finished (70_reset_and_hazards.md R173). -/
  | init
  /-- The low-power wait for a frame (60_exceptions.md R159). -/
  | wait
  /-- A frame of `rxN` bits has been delivered and is being dispatched. -/
  | dispatch
  deriving DecidableEq, Repr

/-- Which agent holds the Frame Buffer (10_state.md R25). -/
inductive Owner where
  /-- The Transport, in phases INIT and WAIT. -/
  | transport
  /-- The Dispatcher, in phase DISPATCH. -/
  | dispatcher
  deriving DecidableEq, Repr

/-- The Frame Buffer's bytes as (offset, byte) pairs, offsets strictly rising, a byte that reads 0x00
unlisted (log entry 4). `Memory.wf` says the form holds. -/
abbrev Memory := List Host.Cell

/-- One reply handed to the Transport: its bytes in order, each sent most-significant bit first
(20_memory.md R51, R56). The block's output is the byte string alone (92_eei_decisions.md D25). -/
abbrev Reply := List Byte

/-- One coming Receive of the Transport: the frame's bits in wire order and the draw `RX_FILL` for the
low bits of a partly filled last byte. Both are free inputs (20_memory.md R49; 41_dispatch.md R101). -/
structure Delivery where
  /-- The frame, bit 0 first (00_scope.md R13). -/
  bits : List Bool
  /-- The draw `RX_FILL`: only the bits below the frame's last one are used. -/
  fill : Byte
  deriving DecidableEq, Repr

/-- The block's state (10_state.md R21), with the model's own queue of coming Receives. `owner` is a
function of `phase` (R25), `IDENT` the constant `identRecord` (R28), `op`, `sub` and `acc` local to a
dispatch (R29). -/
structure State where
  /-- The parameters of 00_scope.md R9, `CRC_TABLE` (10_state.md R27) among them. No step changes them. -/
  cfg : Config
  /-- `phase` (10_state.md R22). -/
  phase : Phase
  /-- `rx_n`, the bit count of the frame being dispatched (10_state.md R24). -/
  rxN : Nat
  /-- `FB`, the Frame Buffer (10_state.md R26). -/
  fb : Memory
  /-- `tx_log`, the replies handed to the Transport, oldest first (10_state.md R30). -/
  txLog : List Reply
  /-- The MODEL's own field: the Receives the Transport will make, oldest first (log entry 7). -/
  rxQueue : List Delivery
  deriving DecidableEq, Repr

/-- Why the machine stops with a fault: never. "The block raises no exceptions, faults or traps"
(60_exceptions.md R150), and no access can be out of range (20_memory.md R42). -/
inductive Fault : Type
  deriving DecidableEq, Repr

/-- Why the machine refuses to run. -/
inductive Refusal where
  /-- An instruction without a meaning; no arm of `exec` answers it. Safe. -/
  | notModelled (mnemonic : String)
  /-- Raised by `step`: GBREAD or GBWRITE shares its opcode with another command. "A model must refuse
  a configuration that breaks (a) or (b)" (00_scope.md R10). Safe. -/
  | opcodeCollision
  /-- Raised by `step`: a table that has not 256 entries, or a `MAX_RX_BITS` outside 281 to 1024
  (00_scope.md R9, R11). Safe. -/
  | badParameterSize
  /-- Raised by `step` in WAIT: the environment would deliver more than `MAX_RX_BITS` bits, a Receive
  that 20_memory.md R49 does not enable (log entry 8). Safe. -/
  | oversizedDelivery
  deriving DecidableEq, Repr

/-- The agent that holds the Frame Buffer, a function of the phase (10_state.md R25). -/
def State.owner (s : State) : Owner :=
  match s.phase with
  | .init => .transport
  | .wait => .transport
  | .dispatch => .dispatcher

/-- The block right after power-on (10_state.md R34, 70_reset_and_hazards.md R170), with the parameters
at their defaults, `rx_n` 0 and every power-on byte of the buffer 0x00. Those values are the model's
(log entries 1 to 5); `State.powerOn` gives the power-on state for any other. -/
def State.reset : State where
  cfg := Config.default
  phase := .init
  rxN := 0
  fb := []
  txLog := []
  rxQueue := []

end Sys2Proof.Machine
end

