-- ==== Sys2Proof/Machine/Ops.lean ====
section
/-! DEFINITION. The named operations over the Frame Buffer and the block's output: the primitives of
00_scope.md R14, and the ways a dispatch ends. The block has no exceptions to take or return from
(60_exceptions.md R150, R153): its error path is `drop`. -/

namespace Sys2Proof.Machine

/-- What an unlisted offset reads as. A listing convention only: a power-on content other than 0x00 is
listed (`State.powerOn`). -/
def unlistedByte : Byte := 0x00

/-- `FB[a]` (00_scope.md R14). Reading has no side effect (20_memory.md R58). -/
def Memory.read : Memory → Nat → Byte
  | [], _ => unlistedByte
  | (b, v) :: m, a => if b = a then v else Memory.read m a

/-- A new entry before the first one with a greater offset. -/
def Memory.insertCell (cell : Host.Cell) : Memory → Memory
  | [] => [cell]
  | c :: m => if cell.1 < c.1 then cell :: c :: m else c :: Memory.insertCell cell m

/-- `FB[a] <- v` (00_scope.md R14): one byte, no other effect (20_memory.md R41, R58). -/
def Memory.write (m : Memory) (a : Nat) (v : Byte) : Memory :=
  let rest := m.filter fun c => c.1 != a
  if v = unlistedByte then rest else Memory.insertCell (a, v) rest

/-- `MemRead(a, n)`: the bytes at `a` to `a + n - 1` in ascending order (00_scope.md R14). -/
def Memory.readBytes (m : Memory) (a n : Nat) : List Byte :=
  (List.range n).map fun i => m.read (a + i)

/-- `MemWrite(a, n, s)`: the bytes of `s` to `a` and up, in ascending order (00_scope.md R14). -/
def Memory.writeBytes (m : Memory) (a : Nat) : List Byte → Memory
  | [] => m
  | v :: vs => Memory.writeBytes (m.write a v) (a + 1) vs

/-- The buffer's size (00_scope.md R11). -/
def bufferBytes : Nat := 128

/-- `FB[a] <- 0x00` for every `a` from 0x00 to 0x7F (44_gbwrite.md R131). A byte that reads 0x00 is
unlisted, so no offset of the buffer stays listed; `Memory.clear_eq_writeBytes` proves that this is the
rule's loop of 128 writes. -/
def Memory.clear (m : Memory) : Memory := m.filter fun c => decide (bufferBytes ≤ c.1)

/-- The canonical form: offsets strictly rising, inside the 128 bytes of 20_memory.md R40 (a), and no
entry that an unlisted offset would read as. -/
def Memory.wf (m : Memory) : Bool :=
  decide (m.Pairwise fun c d => c.1 < d.1) && m.all fun c => decide (c.1 < bufferBytes) && c.2 != unlistedByte

/-- The power-on state for given parameters and `FB_POWERON` (10_state.md R34; 70_reset_and_hazards.md
R170). `rx_n` is not observable there (92_eei_decisions.md D19). -/
def State.powerOn (c : Config) (fbPowerOn : List Byte) : State where
  cfg := c
  phase := .init
  rxN := 0
  fb := Memory.writeBytes [] 0 fbPowerOn
  txLog := []
  rxQueue := []

/-- `FB[a] <- v` on the state. -/
def State.writeByte (s : State) (a : Nat) (v : Byte) : State := { s with fb := s.fb.write a v }

/-- `MemWrite` on the state. -/
def State.writeBytes (s : State) (a : Nat) (vs : List Byte) : State :=
  { s with fb := s.fb.writeBytes a vs }

/-- Every byte of the buffer to 0x00. -/
def State.clearBuffer (s : State) : State := { s with fb := s.fb.clear }

/-- `Reply(s, 8 * length)`: the reply's value is fixed now, and later writes do not change it
(20_memory.md R51, 70_reset_and_hazards.md R176). -/
def State.reply (s : State) (r : Reply) : State := { s with txLog := s.txLog ++ [r] }

/-- A reply as it leaves on the wire (20_memory.md R51, R56). -/
def Reply.wireBits (r : Reply) : List Bool := bitsOfBytes r

/-- The end of a dispatch: DISPATCH to WAIT, with or without a reply (10_state.md R23, 41_dispatch.md R90). -/
def endTransaction (s : State) : Host.Outcome State Fault Refusal := .next { s with phase := .wait }

/-- `drop`: the transaction ends with no reply and no further change (00_scope.md R14, 41_dispatch.md R100). -/
def drop (s : State) : Host.Outcome State Fault Refusal := endTransaction s

end Sys2Proof.Machine
end

