-- ==== Sys2Proof/Machine/Operands.lean ====
section
/-! DEFINITION. Where a command's fields and the buffer's regions lie (20_memory.md R43 to R46), the
frame as the Dispatcher finds it in the buffer, and the Identity Record. The block has no other operand
forms: every field is used where it lands (30_encoding.md R65). -/

namespace Sys2Proof.Machine

/-- The send window starts at offset 0x03 (20_memory.md R44). -/
def sendWindow : Nat := 0x03

/-- The send window's checksum, just past its 32 bytes (20_memory.md R44). -/
def sendChecksum : Nat := 0x23

/-- The communication-status slot (20_memory.md R45). -/
def statusSlot : Nat := 0x30

/-- The status slot's checksum, "status slot + 0x20" (20_memory.md R45). -/
def statusChecksum : Nat := 0x50

/-- The peripheral-receive slot (20_memory.md R46). -/
def peripheralSlot : Nat := 0x51

/-- The byte of the peripheral-receive slot that GBWRITE E0 marks, eight bytes into it (44_gbwrite.md R133). -/
def peripheralMarker : Nat := 0x59

/-- The peripheral slot's checksum (20_memory.md R46). -/
def peripheralChecksum : Nat := 0x71

/-- A slot's size: 32 payload bytes and the checksum (20_memory.md R45, R46). -/
def slotBytes : Nat := 33

/-- `IDENT`: type code low, type code high, status (10_state.md R28). -/
def identRecord : List Byte := [0x00, 0x03, 0x00]

/-- Frame bit `k` where a receive put it: bit 7 - (k mod 8) of `FB[k div 8]` (20_memory.md R49). -/
def Memory.frameBit (m : Memory) (k : Nat) : Bool := (m.read (k / 8)).getMsbD (k % 8)

/-- The frame being dispatched: the first `rx_n` bits of the buffer (30_encoding.md R60; 20_memory.md R55). -/
def State.frame (s : State) : List Bool := (List.range s.rxN).map s.fb.frameBit

end Sys2Proof.Machine
end

