-- ==== Sys2Proof/Machine/Crc.lean ====
section
/-! DEFINITION. The CRC Engine (40_crc_engine.md). -/

namespace Sys2Proof.Machine

/-- `CRC_TABLE[i]`: the index is an 8-bit value, always in range of a valid table (40_crc_engine.md R81). -/
def crcLookup (c : Config) (i : Byte) : Byte := c.crcTable.getD i.toNat 0

/-- The fold of 40_crc_engine.md R81 over a window: from `CRC_INIT`, one lookup a byte in ascending
order, no final transform. -/
def crcFold (c : Config) (window : List Byte) : Byte :=
  window.foldl (fun acc b => crcLookup c (acc ^^^ b)) c.crcInit

/-- `CRC8(a)`: the checksum of the 32 bytes at `a` to `a + 31` as they stand (40_crc_engine.md R80, R81, R83). -/
def State.crc8 (s : State) (a : Nat) : Byte := crcFold s.cfg (s.fb.readBytes a 32)

end Sys2Proof.Machine
end

