-- ==== Sys2Proof/Machine/Drop.lean ====
section
/-! DEFINITION. Frames that no command takes: short frames and unrecognised opcodes (41_dispatch.md). -/

namespace Sys2Proof.Machine

/-- Row 1, SHORT: dropped before its opcode is read (41_dispatch.md R92). -/
def execShort (_bits : List Bool) (s : State) : Host.Outcome State Fault Refusal := drop s

/-- Row 14, unrecognised opcode: dropped whatever its length (41_dispatch.md R94). -/
def execUnrecognised (_bits : List Bool) (s : State) : Host.Outcome State Fault Refusal := drop s

end Sys2Proof.Machine
end

