-- ==== Sys2Proof/Machine/GbRead.lean ====
section
/-! DEFINITION. GBREAD, peripheral read (43_gbread.md). -/

namespace Sys2Proof.Machine

/-- `Reply(MemRead(slot, 33), 264)`: the slot as it stands, its checksum neither verified nor recomputed
(43_gbread.md R124). -/
def replySlot (slot : Nat) (s : State) : Host.Outcome State Fault Refusal :=
  endTransaction (s.reply (s.fb.readBytes slot slotBytes))

/-- Row 5, GBREAD C0: the communication-status slot (43_gbread.md R120). -/
def execGbreadC0 (_b2 : Byte) (_t : Bool) (s : State) : Host.Outcome State Fault Refusal :=
  replySlot statusSlot s

/-- Row 6, GBREAD F0: the peripheral-receive slot (43_gbread.md R121). -/
def execGbreadF0 (_b2 : Byte) (_t : Bool) (s : State) : Host.Outcome State Fault Refusal :=
  replySlot peripheralSlot s

/-- Row 7, GBREAD with another sub-opcode: dropped (43_gbread.md R122). -/
def execGbreadOther (_sub _b2 : Byte) (_t : Bool) (s : State) : Host.Outcome State Fault Refusal := drop s

/-- Row 8, GBREAD at a wrong length: dropped (43_gbread.md R123). -/
def execGbreadWrongLength (_bits : List Bool) (s : State) : Host.Outcome State Fault Refusal := drop s

end Sys2Proof.Machine
end

