-- ==== Sys2Proof/Machine/GbWrite.lean ====
section
/-! DEFINITION. GBWRITE, peripheral write (44_gbwrite.md). The payload is used where it lies, in the send
window; no sub-command copies it into a slot (R137). -/

namespace Sys2Proof.Machine

/-- The common part of every GBWRITE of 281 bits (44_gbwrite.md R130): the send window's checksum goes to
`FB[0x23]`, and that byte is the reply, latched before any staging. -/
def checksumReply (s : State) : State :=
  let stored := s.writeByte sendChecksum (s.crc8 sendWindow)
  stored.reply (stored.fb.readBytes sendChecksum 1)

/-- Write one byte of a slot, then the slot's checksum over its 32 payload bytes as they then stand
(44_gbwrite.md R132, R133). -/
def stageByte (s : State) (a : Nat) (v : Byte) (slot checksum : Nat) : State :=
  let marked := s.writeByte a v
  marked.writeByte checksum (marked.crc8 slot)

/-- Row 9, GBWRITE 80, Initialization: the common part, then every byte of the buffer to 0x00
(44_gbwrite.md R131). -/
def execGbwriteInit (_b2 : Byte) (_d : List Byte) (_t : Bool) (s : State) : Host.Outcome State Fault Refusal :=
  endTransaction (checksumReply s).clearBuffer

/-- Row 10, GBWRITE C0, Configuration: the common part, then the "ready" status 0x02 and its checksum
(44_gbwrite.md R132). -/
def execGbwriteConfig (_b2 : Byte) (_d : List Byte) (_t : Bool) (s : State) : Host.Outcome State Fault Refusal :=
  endTransaction (stageByte (checksumReply s) statusSlot 0x02 statusSlot statusChecksum)

/-- Row 11, GBWRITE E0, Data send: the common part, then the "complete" marker 0x81 and its slot's
checksum (44_gbwrite.md R133). -/
def execGbwriteSend (_b2 : Byte) (_d : List Byte) (_t : Bool) (s : State) : Host.Outcome State Fault Refusal :=
  endTransaction (stageByte (checksumReply s) peripheralMarker 0x81 peripheralSlot peripheralChecksum)

/-- Row 12, GBWRITE with another sub-opcode: the common part alone (44_gbwrite.md R134). -/
def execGbwriteOther (_sub _b2 : Byte) (_d : List Byte) (_t : Bool) (s : State) :
    Host.Outcome State Fault Refusal :=
  endTransaction (checksumReply s)

/-- Row 13, GBWRITE at a wrong length: dropped, the checksum step skipped too (44_gbwrite.md R135). -/
def execGbwriteWrongLength (_bits : List Bool) (s : State) : Host.Outcome State Fault Refusal := drop s

end Sys2Proof.Machine
end

