-- ==== Sys2Proof/Machine/Ident.lean ====
section
/-! DEFINITION. RESET and ID (42_id_reset.md). -/

namespace Sys2Proof.Machine

/-- `Reply(IDENT, 24)`: the constant record, `FB` not written (42_id_reset.md R110; 90_conflicts.md C6). -/
def replyIdent (s : State) : Host.Outcome State Fault Refusal := endTransaction (s.reply identRecord)

/-- Row 2, ID (42_id_reset.md R110). -/
def execId (_t : Bool) (s : State) : Host.Outcome State Fault Refusal := replyIdent s

/-- Row 3, RESET: exactly ID's effect; it resets nothing (42_id_reset.md R111, R113). -/
def execReset (_t : Bool) (s : State) : Host.Outcome State Fault Refusal := replyIdent s

/-- Row 4, ID or RESET at a wrong length: dropped (42_id_reset.md R112). -/
def execIdResetWrongLength (_bits : List Bool) (s : State) : Host.Outcome State Fault Refusal := drop s

end Sys2Proof.Machine
end

