-- ==== Sys2Proof/Machine/Dispatch.lean ====
section
/-! DEFINITION. The meaning of each command: one arm per row of 30_encoding.md R66. -/

namespace Sys2Proof.Machine

def exec (i : Instr) (s : State) : Host.Outcome State Fault Refusal :=
  match i with
  | .short bits => Sys2Proof.Machine.execShort bits s
  | .id t => Sys2Proof.Machine.execId t s
  | .reset t => Sys2Proof.Machine.execReset t s
  | .idResetWrongLength bits => Sys2Proof.Machine.execIdResetWrongLength bits s
  | .gbreadC0 b2 t => Sys2Proof.Machine.execGbreadC0 b2 t s
  | .gbreadF0 b2 t => Sys2Proof.Machine.execGbreadF0 b2 t s
  | .gbreadOther sub b2 t => Sys2Proof.Machine.execGbreadOther sub b2 t s
  | .gbreadWrongLength bits => Sys2Proof.Machine.execGbreadWrongLength bits s
  | .gbwriteInit b2 d t => Sys2Proof.Machine.execGbwriteInit b2 d t s
  | .gbwriteConfig b2 d t => Sys2Proof.Machine.execGbwriteConfig b2 d t s
  | .gbwriteSend b2 d t => Sys2Proof.Machine.execGbwriteSend b2 d t s
  | .gbwriteOther sub b2 d t => Sys2Proof.Machine.execGbwriteOther sub b2 d t s
  | .gbwriteWrongLength bits => Sys2Proof.Machine.execGbwriteWrongLength bits s
  | .unrecognised bits => Sys2Proof.Machine.execUnrecognised bits s

end Sys2Proof.Machine
end

