-- ==== Sys2Proof/Machine/Transport.lean ====
section
/-! DEFINITION. The steps that run no command: the refusal of a configuration, hardware initialisation,
and the Transport's Receive (20_memory.md R48 to R50). -/

namespace Sys2Proof.Machine

/-- The refusal a configuration meets, if any (00_scope.md R9, R10). -/
def configRefusal (c : Config) : Option Refusal :=
  if c.opcodesDistinct = false then some .opcodeCollision
  else if c.sizesOk = false then some .badParameterSize
  else none

/-- Hardware initialisation: at the block's boundary its one effect is INIT to WAIT
(70_reset_and_hazards.md R173). -/
def hardwareInit (s : State) : Host.Outcome State Fault Refusal := .next { s with phase := .wait }

/-- `Receive(n, f)` with its draw (20_memory.md R49): the frame's bits into the buffer from `FB[0]` bit 7
upward, the draw into the rest of a partly filled last byte, then `rx_n` and the phase. -/
def receive (s : State) (d : Delivery) : State :=
  { s.writeBytes 0 (receivedBytes d.bits d.fill) with rxN := d.bits.length, phase := .dispatch }

/-- Phase WAIT: the Transport's next Receive fires, or, with none to come, the block waits on
(41_dispatch.md R90, R102). -/
def transportStep (s : State) : Host.Outcome State Fault Refusal :=
  match s.rxQueue with
  | [] => .next s
  | d :: rest =>
    if d.bits.length ≤ s.cfg.maxRxBits then .next (receive { s with rxQueue := rest } d)
    else .refused .oversizedDelivery

end Sys2Proof.Machine
end

