-- ==== Sys2Proof/Machine/Step.lean ====
section
/-! DEFINITION. One step of the block: hardware initialisation, a Receive of a whole frame, or the
dispatch of a received frame, each atomic (20_memory.md R53; 92_eei_decisions.md D1). -/

namespace Sys2Proof.Machine

/-- One step, by phase (10_state.md R23, 41_dispatch.md R90). A configuration that 00_scope.md R9 or R10
rules out does not run. -/
def step (s : State) : Host.Outcome State Fault Refusal :=
  match configRefusal s.cfg with
  | some r => .refused r
  | none =>
    match s.phase with
    | .init => hardwareInit s
    | .wait => transportStep s
    | .dispatch => exec (decode s.cfg s.frame) s

/-- `s` right after the Transport delivered the frame that a table word stands for, zeros in the unused
low bits of its last byte: the next step dispatches it (log entry 13). -/
def State.withFetchWord (s : State) (nbits w : Nat) : State := receive s ⟨tableFrame nbits w, 0⟩

end Sys2Proof.Machine
end

