-- ==== Sys2Proof/Safety.lean ====
section
/-! DEFINITION. What counts as a good state and a good run, in the terms the statements use, and two
second forms of the block's functions that the statements compare the machine with. -/

namespace Sys2Proof.Machine

/-- A reply of one of the formats of 30_encoding.md R67: Y8, Y24 or Y264, in bytes. -/
def Reply.formatOk (r : Reply) : Bool := r.length == 1 || r.length == 3 || r.length == 33

/-- The invariant of the running block: a configuration the model accepts, the buffer in its canonical
form, a received length within `MAX_RX_BITS` while it is dispatched (10_state.md R24), and only replies
of the three formats. -/
def State.Inv (s : State) : Prop :=
  s.cfg.valid = true ∧ s.fb.wf = true ∧ (s.phase = .dispatch → s.rxN ≤ s.cfg.maxRxBits) ∧
    ∀ r ∈ s.txLog, Reply.formatOk r = true

/-- The environment keeps the Transport's contract: every coming Receive has at most `MAX_RX_BITS` bits
(20_memory.md R49). -/
def State.ContractKept (s : State) : Prop := ∀ d ∈ s.rxQueue, d.bits.length ≤ s.cfg.maxRxBits

/-- `k` steps of the host's machine. -/
def runSteps (k : Nat) (s : State) : Host.Outcome State Fault Refusal := Host.Core.run Sys2Proof.core k s

/-- Frames the block still has to answer or drop: those to come, and the one being dispatched. -/
def State.openFrames (s : State) : Nat := s.rxQueue.length + if s.phase = .dispatch then 1 else 0

/-- One transaction from WAIT: the Receive at the head of the queue, then the dispatch of that frame
(41_dispatch.md R90, R101). -/
def transaction (s : State) : Host.Outcome State Fault Refusal :=
  match step s with
  | .next received => step received
  | .fault r => .fault r
  | .refused r => .refused r

/-- The 33 bytes `r` read at `slot` show the frame `long` over what the slot held `before`: the frame's
bytes where it reached a slot byte wholly, its bits and then its draw in a byte it filled partly, and the
old bytes beyond it (20_memory.md R49, R50; 70_reset_and_hazards.md R178). -/
def Reply.ShowsFrameInSlot (r : Reply) (slot : Nat) (long : Delivery) (before : Memory) : Prop :=
  r.length = 33 ∧
    (∀ j, j < 33 → 8 * (slot + j) + 8 ≤ long.bits.length → r.getD j 0 = frameByte long.bits (slot + j)) ∧
    (∀ k, ∀ _ : k < long.bits.length, 8 * slot ≤ k → k < 8 * (slot + 33) →
      (r.getD (k / 8 - slot) 0).getLsbD (7 - k % 8) = long.bits[k]) ∧
    (∀ i, slot ≤ long.bits.length / 8 → long.bits.length / 8 < slot + 33 →
      long.bits.length % 8 ≠ 0 → i < 8 - long.bits.length % 8 →
      (r.getD (long.bits.length / 8 - slot) 0).getLsbD i = long.fill.getLsbD i) ∧
    ∀ j, j < 33 → long.bits.length ≤ 8 * (slot + j) → r.getD j 0 = before.read (slot + j)

/-- The dispatch as the pseudocode of 41_dispatch.md R91 and of ExecIdent, ExecGbRead and ExecGbWrite
writes it, reading `rx_n`, `FB[0]` and `FB[1]` straight from the buffer: it shares no decoder and no
meaning with `exec`, only the buffer's operations. -/
def dispatchPseudocode (s : State) : State :=
  if s.rxN < 9 then { s with phase := .wait }
  else if s.fb.read 0 = s.cfg.opId ∨ s.fb.read 0 = s.cfg.opReset then
    if s.rxN ≠ 9 then { s with phase := .wait }
    else { s with phase := .wait, txLog := s.txLog ++ [[0x00, 0x03, 0x00]] }
  else if s.fb.read 0 = s.cfg.opGbRead then
    if s.rxN ≠ 25 then { s with phase := .wait }
    else if s.fb.read 1 = 0xC0 then
      { s with phase := .wait, txLog := s.txLog ++ [s.fb.readBytes 0x30 33] }
    else if s.fb.read 1 = 0xF0 then
      { s with phase := .wait, txLog := s.txLog ++ [s.fb.readBytes 0x51 33] }
    else { s with phase := .wait }
  else if s.fb.read 0 = s.cfg.opGbWrite then
    if s.rxN ≠ 281 then { s with phase := .wait }
    else
      let c := crcFold s.cfg (s.fb.readBytes 0x03 32)
      let fb1 := s.fb.write 0x23 c
      let s1 := { s with phase := .wait, txLog := s.txLog ++ [[c]] }
      if s.fb.read 1 = 0x80 then { s1 with fb := fb1.writeBytes 0 (List.replicate 128 0x00) }
      else if s.fb.read 1 = 0xC0 then
        let fb2 := fb1.write 0x30 0x02
        { s1 with fb := fb2.write 0x50 (crcFold s.cfg (fb2.readBytes 0x30 32)) }
      else if s.fb.read 1 = 0xE0 then
        let fb2 := fb1.write 0x59 0x81
        { s1 with fb := fb2.write 0x71 (crcFold s.cfg (fb2.readBytes 0x51 32)) }
      else { s1 with fb := fb1 }
  else { s with phase := .wait }

/-- One step of the bit-serial register of 40_crc_engine.md R87: the bit enters at the bottom, and the
polynomial is taken away when a one leaves at the top. -/
def crcSerialBit (r : Byte) (b : Bool) : Byte :=
  let shifted := (r <<< 1) ||| (if b then 1 else 0)
  if r.getLsbD 7 then shifted ^^^ 0x85 else shifted

/-- The bit-serial form of 40_crc_engine.md R87: the window's bytes and then one zero byte, most
significant bit first, through the shift register. -/
def crcSerial (window : List Byte) : Byte :=
  (bitsOfBytes (window ++ [0x00])).foldl crcSerialBit 0

end Sys2Proof.Machine
end

