-- ==== Sys2Proof/Certificates/Slice0/Obligations.lean ====
section
/-! DEFINITION. The statements for the provers. Every statement over all states holds for every value of
the parameters of 00_scope.md R9, since the state carries them, and for every power-on content of the
Frame Buffer. -/

open Sys2Proof Sys2Proof.Machine

/-! ### Power-on, the invariant and the control loop -/

/-- The power-on values (10_state.md R34), for every configuration and every `FB_POWERON`; and no step
changes a constant (70_reset_and_hazards.md R170). The phase, the owner and the empty log at
power-on are the spec's own decision (92_eei_decisions.md D17; log entry 10). -/
def Obligations.PowerOnState : Prop :=
  (∀ (c : Config) (fbPowerOn : List Byte), fbPowerOn.length = 128 →
    (State.powerOn c fbPowerOn).phase = .init ∧
    (State.powerOn c fbPowerOn).owner = .transport ∧
    (∀ a < 128, (State.powerOn c fbPowerOn).fb.read a = fbPowerOn.getD a 0) ∧
    (State.powerOn c fbPowerOn).txLog = [] ∧
    (State.powerOn c fbPowerOn).cfg = c ∧
    identRecord = [0x00, 0x03, 0x00]) ∧
  ∀ s t : State, step s = .next t → t.cfg = s.cfg

/-- `State.reset` is the power-on state at the default parameters with every power-on byte 0x00. These
parameter values and this content are the model's choice (log entries 1 to 5). -/
def Obligations.ResetIsPowerOnAtModelDefaults : Prop :=
  State.reset = State.powerOn Config.default (List.replicate 128 0x00)

/-- The invariant holds at `State.reset`, whose parameters and contents are the model's choice (log entries 1
to 5). -/
def Obligations.InvariantAtReset : Prop := State.reset.Inv

/-- The invariant holds after power-on, for every configuration the model accepts and every power-on
content of the 128 bytes. -/
def Obligations.InvariantAtPowerOn : Prop :=
  ∀ (c : Config) (fbPowerOn : List Byte), c.valid = true → fbPowerOn.length = 128 →
    (State.powerOn c fbPowerOn).Inv

/-- Every step keeps the invariant: an accepted configuration, the canonical buffer inside its 128 bytes,
`rx_n` within `MAX_RX_BITS` during a dispatch (10_state.md R24), replies of the three formats (30_encoding.md R67). -/
def Obligations.InvariantKeptByEveryStep : Prop :=
  ∀ s t : State, s.Inv → step s = .next t → t.Inv

/-- The block never stops: from a state with the invariant whose environment keeps the Transport's
contract, a run of any length answers a next state (41_dispatch.md R90, R102; 60_exceptions.md R150). -/
def Obligations.RunsNeverStop : Prop :=
  ∀ (k : Nat) (s : State), s.Inv → s.ContractKept →
    ∃ t, runSteps k s = .next t ∧ t.Inv ∧ t.ContractKept

/-- Hardware initialisation has one effect on the block, INIT to WAIT (70_reset_and_hazards.md R173); that
it is one step with this effect is the spec's own decision (92_eei_decisions.md D17; log entry 10). -/
def Obligations.HardwareInitialisationEntersWait : Prop :=
  ∀ s : State, s.cfg.valid = true → s.phase = .init → step s = .next { s with phase := .wait }

/-- With no Receive to come the block waits on, changing nothing (41_dispatch.md R102); the queue of coming
Receives is the model's own field (log entry 7). -/
def Obligations.WaitWithoutFrameKeepsState : Prop :=
  ∀ s : State, s.cfg.valid = true → s.phase = .wait → s.rxQueue = [] → step s = .next s

/-- `phase` advances only INIT to WAIT, WAIT to DISPATCH by a receive, and DISPATCH to WAIT (10_state.md
R23). That a step with no Receive to come leaves a waiting block as it is, is the model's choice (log
entry 7), after 41_dispatch.md R102. -/
def Obligations.PhaseAdvancesOnlyAlongTheLoop : Prop :=
  ∀ s t : State, step s = .next t →
    (s.phase = .init ∧ t = { s with phase := .wait }) ∨
    (s.phase = .wait ∧ s.rxQueue = [] ∧ t = s) ∨
    (s.phase = .wait ∧ t.phase = .dispatch ∧
      ∃ d, s.rxQueue = d :: t.rxQueue ∧ t.rxN = d.bits.length) ∨
    (s.phase = .dispatch ∧ t.phase = .wait ∧ t.rxQueue = s.rxQueue)

/-- The Frame Buffer changes only under its holder: by a receive while the Transport holds it, which
then hands it over, or by a dispatch while the Dispatcher does, which hands it back (10_state.md R25,
20_memory.md R52). A receive writes exactly the received bytes (R49): the draw in a partly filled last byte
and the unchanged rest are the spec's own choice (92_eei_decisions.md D7; log entry 6). -/
def Obligations.OnlyTheOwnerChangesTheBuffer : Prop :=
  ∀ s t : State, step s = .next t → t.fb ≠ s.fb →
    (s.owner = .transport ∧ t.owner = .dispatcher ∧
      ∃ d, s.rxQueue = d :: t.rxQueue ∧ t.fb = s.fb.writeBytes 0 (receivedBytes d.bits d.fill)) ∨
    (s.owner = .dispatcher ∧ t.owner = .transport)

/-- A step in DISPATCH runs the command decoded from the first `rx_n` bits of the buffer, and nothing
else (41_dispatch.md R90; 20_memory.md R55). -/
def Obligations.StepRunsTheDecodedCommand : Prop :=
  ∀ s : State, s.cfg.valid = true → s.phase = .dispatch → step s = exec (decode s.cfg s.frame) s

/-! ### Configurations and the environment -/

/-- A configuration that breaks 00_scope.md R10 (a) or (b) is refused in every state; one that makes
`OP_RESET` equal to `OP_ID` is accepted with its others (R10 (c)). -/
def Obligations.OpcodeCollisionsRefused : Prop :=
  (∀ s : State,
    (s.cfg.opGbRead = s.cfg.opGbWrite ∨ s.cfg.opGbRead = s.cfg.opId ∨ s.cfg.opGbRead = s.cfg.opReset ∨
      s.cfg.opGbWrite = s.cfg.opId ∨ s.cfg.opGbWrite = s.cfg.opReset) →
    step s = .refused .opcodeCollision) ∧
  ∀ c : Config, c.valid = true → ({ c with opReset := c.opId } : Config).valid = true

/-- Parameters of a size that 00_scope.md R9 and R11 rule out are refused in every state; that the model
refuses them by this name is its choice (log entry 9). -/
def Obligations.BadParameterSizesRefused : Prop :=
  ∀ s : State, s.cfg.opcodesDistinct = true →
    (s.cfg.crcTable.length ≠ 256 ∨ s.cfg.maxRxBits < 281 ∨ 1024 < s.cfg.maxRxBits) →
    step s = .refused .badParameterSize

/-- A delivery of more than `MAX_RX_BITS` bits, which the Receive of 20_memory.md R49 does not allow, is
refused; that the model stops there by this name is its choice (log entry 8). -/
def Obligations.OversizedDeliveryRefused : Prop :=
  ∀ (s : State) (d : Delivery) (rest : List Delivery), s.cfg.valid = true → s.phase = .wait →
    s.rxQueue = d :: rest → s.cfg.maxRxBits < d.bits.length →
    step s = .refused .oversizedDelivery

/-- A receive puts frame bit k into bit 7 - (k mod 8) of `FB[k div 8]`, the draw into the low bits of a
partly filled last byte, changes no byte beyond the frame, sets `rx_n` and hands the buffer over; it
happens in WAIT only (20_memory.md R49). The draw and the unchanged bytes beyond the frame are the spec's
own choice (92_eei_decisions.md D7; log entry 6). -/
def Obligations.ReceivePlacesTheFrame : Prop :=
  (∀ (s : State) (d : Delivery) (rest : List Delivery), s.cfg.valid = true → s.phase = .wait →
    s.rxQueue = d :: rest → d.bits.length ≤ s.cfg.maxRxBits →
    ∃ t, step s = .next t ∧ t.phase = .dispatch ∧ t.owner = .dispatcher ∧ t.rxN = d.bits.length ∧
      t.rxQueue = rest ∧ t.cfg = s.cfg ∧ t.txLog = s.txLog ∧
      (∀ k, ∀ _ : k < d.bits.length, (t.fb.read (k / 8)).getLsbD (7 - k % 8) = d.bits[k]) ∧
      (∀ i, d.bits.length % 8 ≠ 0 → i < 8 - d.bits.length % 8 →
        (t.fb.read (d.bits.length / 8)).getLsbD i = d.fill.getLsbD i) ∧
      ∀ a, (d.bits.length + 7) / 8 ≤ a → t.fb.read a = s.fb.read a) ∧
  ∀ s t : State, step s = .next t → t.rxQueue ≠ s.rxQueue → s.phase = .wait

/-! ### Decoding -/

/-- Decoding the frame of a well-formed command gives the command back, for every command, operand and
accepted configuration (30_encoding.md R61 to R66). -/
def Obligations.EncodeThenDecode : Prop :=
  ∀ (c : Config) (i : Instr), c.valid = true → i.wellFormed c = true → decode c (encode c i) = i

/-- Every frame a receive can deliver decodes to a well-formed command, whose frame it is: no bit of a
frame is dropped and no frame is rejected (30_encoding.md R66, R68). -/
def Obligations.DecodeThenEncode : Prop :=
  ∀ (c : Config) (f : List Bool), c.valid = true → f.length ≤ c.maxRxBits →
    (decode c f).wellFormed c = true ∧ encode c (decode c f) = f

/-- The notation of 30_encoding.md R70 writes frames of the lengths it says, each decoded as the command it
names with the operands written, at every accepted configuration; `RAW n` has n bits, the bytes' bits most
significant first as far as they go. -/
def Obligations.NotatedFramesDecode : Prop :=
  (∀ (c : Config) (s b : Byte) (d : List Byte) (t : Bool), c.valid = true → d.length = 32 →
    (idFrame c t).length = 9 ∧ decode c (idFrame c t) = .id t ∧
    (resetFrame c t).length = 9 ∧
    decode c (resetFrame c t) = (if c.opReset = c.opId then .id t else .reset t) ∧
    (gbreadFrame c s b t).length = 25 ∧
    decode c (gbreadFrame c s b t) =
      (if s = 0xC0 then .gbreadC0 b t else if s = 0xF0 then .gbreadF0 b t else .gbreadOther s b t) ∧
    (gbwriteFrame c s b d t).length = 281 ∧
    decode c (gbwriteFrame c s b d t) =
      (if s = 0x80 then .gbwriteInit b d t else if s = 0xC0 then .gbwriteConfig b d t
       else if s = 0xE0 then .gbwriteSend b d t else .gbwriteOther s b d t)) ∧
  ∀ (n : Nat) (bytes : List Byte), (rawFrame n bytes).length = n ∧
    ∀ k, k < n → ∀ h : k < 8 * bytes.length,
      (rawFrame n bytes).getD k false = (bytes[k / 8]'(by omega)).getMsbD (k % 8)

/-- Frames written out from 30_encoding.md R61 to R63, R66 and R70 decode to the commands they are. -/
def Obligations.SampleFramesDecode : Prop :=
  decode Config.default [false, false, false, false, false, false, false, false, true] = .id true ∧
  decode Config.default [true, true, true, true, true, true, true, true, true] = .reset true ∧
  decode Config.default
    [false, false, false, true, false, false, true, true,
     true, true, false, false, false, false, false, false,
     false, false, false, false, false, false, false, false, true] = .gbreadC0 0x00 true ∧
  decode Config.default
    [false, false, false, true, false, false, true, true,
     true, true, true, true, false, false, false, false,
     false, false, false, false, false, false, false, true, false] = .gbreadF0 0x01 false ∧
  decode Config.default
    ([false, false, false, true, false, true, false, false,
      true, false, false, false, false, false, false, false,
      false, false, false, false, false, false, false, false] ++ List.replicate 256 true ++ [true]) =
    .gbwriteInit 0x00 (List.replicate 32 0xFF) true

/-- The dispatch of a received frame is the pseudocode of 41_dispatch.md R91 and of ExecIdent, ExecGbRead
and ExecGbWrite, read straight from `rx_n`, `FB[0]` and `FB[1]`: decoding the frame and running the
command's meaning does the same, in every state.
The bodies compared are those of 40_crc_engine.md R81, 42_id_reset.md R110 to R112, 43_gbread.md R120 to R123
and 44_gbwrite.md R130 to R135. In them the latched reply and the fold step (92_eei_decisions.md D9, D3; log
entry 10), the unwritten buffer after ID and RESET and the uncopied payload (D12, D20; log entry 21) are the
spec's own decisions. -/
def Obligations.DispatchEqualsTheSpecsPseudocode : Prop :=
  ∀ s : State, s.cfg.valid = true → s.phase = .dispatch → step s = .next (dispatchPseudocode s)

/-- A well-formed command that the Transport delivers, with any draw, is the command the next dispatch
runs (20_memory.md R49, R53; 41_dispatch.md R90). -/
def Obligations.DeliveredCommandIsTheOneThatRuns : Prop :=
  ∀ (s : State) (i : Instr) (fill : Byte) (rest : List Delivery), s.cfg.valid = true →
    s.phase = .wait → i.wellFormed s.cfg = true → s.rxQueue = ⟨encode s.cfg i, fill⟩ :: rest →
    ∃ received, step s = .next received ∧ received.phase = .dispatch ∧
      received.rxN = i.frameLength ∧ received.rxQueue = rest ∧ received.txLog = s.txLog ∧
      received.cfg = s.cfg ∧ step received = exec i received

/-- `withFetchWord` makes the next step run exactly the command that `decodeTableWord` reads from the word. -/
def Obligations.FetchedTableWordRuns : Prop :=
  ∀ (s : State) (nbits w : Nat), s.cfg = Config.default →
    ∃ i, decodeTableWord nbits w = some i ∧
      step (s.withFetchWord nbits w) = exec i (s.withFetchWord nbits w)

/-! ### Drops -/

/-- The six commands that are dropped only return the loop to WAIT (41_dispatch.md R92, R94, R100;
42_id_reset.md R112; 43_gbread.md R122, R123; 44_gbwrite.md R135). -/
def Obligations.DroppedCommandsOnlyReturnToWait : Prop :=
  ∀ (s : State) (bits : List Bool) (sub b2 : Byte) (t : Bool),
    exec (.short bits) s = .next { s with phase := .wait } ∧
    exec (.idResetWrongLength bits) s = .next { s with phase := .wait } ∧
    exec (.gbreadOther sub b2 t) s = .next { s with phase := .wait } ∧
    exec (.gbreadWrongLength bits) s = .next { s with phase := .wait } ∧
    exec (.gbwriteWrongLength bits) s = .next { s with phase := .wait } ∧
    exec (.unrecognised bits) s = .next { s with phase := .wait }

/-- A frame of fewer than 9 bits is dropped, whatever the buffer holds (41_dispatch.md R92). -/
def Obligations.ShortFramesDropped : Prop :=
  ∀ s : State, s.cfg.valid = true → s.phase = .dispatch → s.rxN < 9 →
    step s = .next { s with phase := .wait }

/-- A frame of 9 bits or more with an opcode that is none of the four is dropped (41_dispatch.md R94). -/
def Obligations.UnrecognisedOpcodeDropped : Prop :=
  ∀ s : State, s.cfg.valid = true → s.phase = .dispatch → 9 ≤ s.rxN →
    s.fb.read 0 ≠ s.cfg.opId → s.fb.read 0 ≠ s.cfg.opReset →
    s.fb.read 0 ≠ s.cfg.opGbRead → s.fb.read 0 ≠ s.cfg.opGbWrite →
    step s = .next { s with phase := .wait }

/-- A recognised opcode at any length of 9 bits or more but its own is dropped: 9 for RESET and ID, 25 for
GBREAD, 281 for GBWRITE (41_dispatch.md R95; 42_id_reset.md R112; 43_gbread.md R123; 44_gbwrite.md R135). -/
def Obligations.WrongLengthDropped : Prop :=
  ∀ s : State, s.cfg.valid = true → s.phase = .dispatch → 9 ≤ s.rxN →
    ((s.fb.read 0 = s.cfg.opId ∨ s.fb.read 0 = s.cfg.opReset) ∧ s.rxN ≠ 9 ∨
      s.fb.read 0 = s.cfg.opGbRead ∧ s.rxN ≠ 25 ∨
      s.fb.read 0 = s.cfg.opGbWrite ∧ s.rxN ≠ 281) →
    step s = .next { s with phase := .wait }

/-- GBREAD of the right length with another sub-opcode is dropped (43_gbread.md R122). -/
def Obligations.GbReadOtherSubOpcodeDropped : Prop :=
  ∀ s : State, s.cfg.valid = true → s.phase = .dispatch → s.rxN = 25 →
    s.fb.read 0 = s.cfg.opGbRead → s.fb.read 1 ≠ 0xC0 → s.fb.read 1 ≠ 0xF0 →
    step s = .next { s with phase := .wait }

/-! ### RESET, ID and GBREAD -/

/-- The meanings of ID and RESET: the Identity Record as the reply, nothing else changed but the phase
(42_id_reset.md R110, R111). That the buffer is not written is the spec's own decision (92_eei_decisions.md
D12; log entry 21). -/
def Obligations.IdentCommandsReplyTheRecord : Prop :=
  ∀ (s : State) (t : Bool),
    exec (.id t) s = .next { s with phase := .wait, txLog := s.txLog ++ [[0x00, 0x03, 0x00]] } ∧
    exec (.reset t) s = .next { s with phase := .wait, txLog := s.txLog ++ [[0x00, 0x03, 0x00]] }

/-- A received RESET or ID of exactly 9 bits is answered with 00 03 00, and changes nothing else
(42_id_reset.md R110, R111, R113). That the buffer is not written is the spec's own decision
(92_eei_decisions.md D12; log entry 21). -/
def Obligations.ResetAndIdAnswerIdentity : Prop :=
  ∀ s : State, s.cfg.valid = true → s.phase = .dispatch → s.rxN = 9 →
    s.fb.read 0 = s.cfg.opId ∨ s.fb.read 0 = s.cfg.opReset →
    step s = .next { s with phase := .wait, txLog := s.txLog ++ [[0x00, 0x03, 0x00]] }

/-- The meanings of the two GBREADs: the 33 bytes of the slot as they stand, nothing else changed but the
phase. -/
def Obligations.GbReadCommandsReplyTheirSlot : Prop :=
  ∀ (s : State) (b2 : Byte) (t : Bool),
    exec (.gbreadC0 b2 t) s = .next { s with
      phase := .wait, txLog := s.txLog ++ [(List.range 33).map fun i => s.fb.read (0x30 + i)] } ∧
    exec (.gbreadF0 b2 t) s = .next { s with
      phase := .wait, txLog := s.txLog ++ [(List.range 33).map fun i => s.fb.read (0x51 + i)] }

/-- A received GBREAD of 25 bits answers with the slot its sub-opcode names, byte for byte and unverified
(43_gbread.md R120, R121, R124). -/
def Obligations.GbReadAnswersTheSlot : Prop :=
  ∀ s : State, s.cfg.valid = true → s.phase = .dispatch → s.rxN = 25 →
    s.fb.read 0 = s.cfg.opGbRead →
    (s.fb.read 1 = 0xC0 → step s = .next { s with
      phase := .wait, txLog := s.txLog ++ [(List.range 33).map fun i => s.fb.read (0x30 + i)] }) ∧
    (s.fb.read 1 = 0xF0 → step s = .next { s with
      phase := .wait, txLog := s.txLog ++ [(List.range 33).map fun i => s.fb.read (0x51 + i)] })

/-! ### GBWRITE -/

/-- Every received GBWRITE of 281 bits, whatever its sub-opcode, answers with the checksum of the send
window as received, and leaves it at 0x23 unless the sub-opcode clears the buffer (44_gbwrite.md R130). That the
reply is latched and the fold step are the spec's own decisions (92_eei_decisions.md D9, D3; log entry 10). -/
def Obligations.EveryGbWriteAnswersItsChecksum : Prop :=
  ∀ s : State, s.cfg.valid = true → s.phase = .dispatch → s.rxN = 281 →
    s.fb.read 0 = s.cfg.opGbWrite →
    ∃ t, step s = .next t ∧ t.phase = .wait ∧
      t.txLog = s.txLog ++ [[crcFold s.cfg (s.fb.readBytes 0x03 32)]] ∧
      (s.fb.read 1 ≠ 0x80 → t.fb.read 0x23 = crcFold s.cfg (s.fb.readBytes 0x03 32))

/-- GBWRITE with another sub-opcode: the checksum stored at 0x23 and replied, no other byte changed; a
received one of 281 bits runs so (44_gbwrite.md R134). The checksum's fold step is the spec's own
decision (92_eei_decisions.md D3; log entry 10). -/
def Obligations.GbWriteOtherStoresOnlyTheChecksum : Prop :=
  ∀ (s : State) (sub b2 : Byte) (d : List Byte) (tb : Bool),
    ∃ t, exec (.gbwriteOther sub b2 d tb) s = .next t ∧
      t.phase = .wait ∧ t.cfg = s.cfg ∧ t.rxN = s.rxN ∧ t.rxQueue = s.rxQueue ∧
      t.txLog = s.txLog ++ [[crcFold s.cfg (s.fb.readBytes 0x03 32)]] ∧
      t.fb.read 0x23 = crcFold s.cfg (s.fb.readBytes 0x03 32) ∧
      (s.cfg.valid = true → s.phase = .dispatch → s.rxN = 281 → s.fb.read 0 = s.cfg.opGbWrite →
        s.fb.read 1 ≠ 0x80 → s.fb.read 1 ≠ 0xC0 → s.fb.read 1 ≠ 0xE0 → step s = .next t) ∧
      ∀ a, a ≠ 0x23 → t.fb.read a = s.fb.read a

/-- GBWRITE 80, Initialization: the pre-clear checksum is the reply, and every byte of the buffer is 0x00
afterwards; a received one of 281 bits runs so (44_gbwrite.md R131). That the reply is latched and the
fold step are the spec's own decisions (92_eei_decisions.md D9, D3; log entry 10). -/
def Obligations.InitializationClearsTheBuffer : Prop :=
  ∀ (s : State) (b2 : Byte) (d : List Byte) (tb : Bool),
    ∃ t, exec (.gbwriteInit b2 d tb) s = .next t ∧
      t.phase = .wait ∧ t.cfg = s.cfg ∧ t.rxN = s.rxN ∧ t.rxQueue = s.rxQueue ∧
      t.txLog = s.txLog ++ [[crcFold s.cfg (s.fb.readBytes 0x03 32)]] ∧
      (∀ a, a < 128 → t.fb.read a = 0x00) ∧
      (s.cfg.valid = true → s.phase = .dispatch → s.rxN = 281 → s.fb.read 0 = s.cfg.opGbWrite →
        s.fb.read 1 = 0x80 → step s = .next t) ∧
      ∀ a, 128 ≤ a → t.fb.read a = s.fb.read a

/-- GBWRITE C0, Configuration: 0x02 at 0x30 and the slot's checksum at 0x50 over the other bytes as they
stand, the payload not copied, every other byte unchanged; running it again gives the same slot, and a
received one of 281 bits runs so (44_gbwrite.md R132). That the payload is not copied is the spec's own
decision (R137; 92_eei_decisions.md D20; log entry 21); the reply's latching and the fold step are D9 and D3
(log entry 10). -/
def Obligations.ConfigurationStagesTheStatus : Prop :=
  ∀ (s : State) (b2 : Byte) (d : List Byte) (tb : Bool),
    ∃ t, exec (.gbwriteConfig b2 d tb) s = .next t ∧
      t.phase = .wait ∧ t.cfg = s.cfg ∧ t.rxN = s.rxN ∧ t.rxQueue = s.rxQueue ∧
      t.txLog = s.txLog ++ [[crcFold s.cfg (s.fb.readBytes 0x03 32)]] ∧
      t.fb.read 0x23 = crcFold s.cfg (s.fb.readBytes 0x03 32) ∧
      t.fb.read 0x30 = 0x02 ∧
      t.fb.read 0x50 = crcFold s.cfg (0x02 :: s.fb.readBytes 0x31 31) ∧
      (∀ a, a ≠ 0x23 → a ≠ 0x30 → a ≠ 0x50 → t.fb.read a = s.fb.read a) ∧
      (s.cfg.valid = true → s.phase = .dispatch → s.rxN = 281 → s.fb.read 0 = s.cfg.opGbWrite →
        s.fb.read 1 = 0xC0 → step s = .next t) ∧
      ∀ (b2' : Byte) (d' : List Byte) (tb' : Bool) (u : State),
        exec (.gbwriteConfig b2' d' tb') t = .next u →
        ∀ a, 0x30 ≤ a → a ≤ 0x50 → u.fb.read a = t.fb.read a

/-- GBWRITE E0, Data send: 0x81 at 0x59 and the slot's checksum at 0x71 over the other bytes as they
stand, the payload not copied, every other byte unchanged; running it again gives the same slot, and a
received one of 281 bits runs so (44_gbwrite.md R133). That the payload is not copied is the spec's own
decision (R137; 92_eei_decisions.md D20; log entry 21); the reply's latching and the fold step are D9 and D3
(log entry 10). -/
def Obligations.DataSendStagesTheMarker : Prop :=
  ∀ (s : State) (b2 : Byte) (d : List Byte) (tb : Bool),
    ∃ t, exec (.gbwriteSend b2 d tb) s = .next t ∧
      t.phase = .wait ∧ t.cfg = s.cfg ∧ t.rxN = s.rxN ∧ t.rxQueue = s.rxQueue ∧
      t.txLog = s.txLog ++ [[crcFold s.cfg (s.fb.readBytes 0x03 32)]] ∧
      t.fb.read 0x23 = crcFold s.cfg (s.fb.readBytes 0x03 32) ∧
      t.fb.read 0x59 = 0x81 ∧
      t.fb.read 0x71 = crcFold s.cfg (s.fb.readBytes 0x51 8 ++ 0x81 :: s.fb.readBytes 0x5A 23) ∧
      (∀ a, a ≠ 0x23 → a ≠ 0x59 → a ≠ 0x71 → t.fb.read a = s.fb.read a) ∧
      (s.cfg.valid = true → s.phase = .dispatch → s.rxN = 281 → s.fb.read 0 = s.cfg.opGbWrite →
        s.fb.read 1 = 0xE0 → step s = .next t) ∧
      ∀ (b2' : Byte) (d' : List Byte) (tb' : Bool) (u : State),
        exec (.gbwriteSend b2' d' tb') t = .next u →
        ∀ a, 0x51 ≤ a → a ≤ 0x71 → u.fb.read a = t.fb.read a

/-- A byte of the buffer that a command changes is one the spec lets that command write: any byte under
Initialization, 0x23 under a GBWRITE, 0x30 and 0x50 under Configuration, 0x59 and 0x71 under Data send.
No other command writes the buffer (42_id_reset.md R110, R111; 43_gbread.md R120, R121; 41_dispatch.md
R100), and none copies the payload into a slot (44_gbwrite.md R131 to R134, R137). That ID and RESET write
nothing and that no payload is copied are the spec's own decisions (92_eei_decisions.md D12, D20; log entry
21). -/
def Obligations.CommandsWriteOnlyTheirBytes : Prop :=
  ∀ (i : Instr) (s t : State) (a : Nat), exec i s = .next t → t.fb.read a ≠ s.fb.read a →
    (∃ b2 d tb, i = .gbwriteInit b2 d tb ∧ a < 128) ∨
    (∃ b2 d tb, i = .gbwriteConfig b2 d tb ∧ (a = 0x23 ∨ a = 0x30 ∨ a = 0x50)) ∨
    (∃ b2 d tb, i = .gbwriteSend b2 d tb ∧ (a = 0x23 ∨ a = 0x59 ∨ a = 0x71)) ∨
    (∃ sub b2 d tb, i = .gbwriteOther sub b2 d tb ∧ a = 0x23)

/-! ### Replies and whole transactions -/

/-- A step hands over at most one reply, only a dispatch does, and it is of format Y8, Y24 or Y264
(41_dispatch.md R97; 30_encoding.md R67). -/
def Obligations.AtMostOneReplyPerStep : Prop :=
  ∀ s t : State, step s = .next t →
    t.txLog = s.txLog ∨
    s.phase = .dispatch ∧ ∃ r, Reply.formatOk r = true ∧ t.txLog = s.txLog ++ [r]

/-- Along every run replies are only appended, and each answers a frame of its own: the block never
replies to a frame it did not receive (41_dispatch.md R97). -/
def Obligations.RepliesNeverOutnumberFrames : Prop :=
  ∀ (k : Nat) (s t : State), runSteps k s = .next t →
    s.txLog <+: t.txLog ∧ t.txLog.length + t.openFrames ≤ s.txLog.length + s.openFrames

/-- A reply leaves as eight bits a byte, most significant first (20_memory.md R51, R56). -/
def Obligations.RepliesLeaveMostSignificantBitFirst : Prop :=
  ∀ r : Reply, (Reply.wireBits r).length = 8 * r.length ∧
    ∀ j i, ∀ _ : j < r.length, i < 8 → (Reply.wireBits r).getD (8 * j + i) false = r[j].getMsbD i

/-- One delivered GBWRITE 80 brings every byte of the buffer to 0x00, whatever it held, and is answered
with its payload's checksum (70_reset_and_hazards.md R174; 44_gbwrite.md R130, R131). That the reply is the
checksum although 0x23 is cleared rests on the latched reply, and its value on the fold step, the spec's own
decisions (92_eei_decisions.md D9, D3; log entry 10). -/
def Obligations.DeliveredInitializationClearsAnyBuffer : Prop :=
  ∀ (s : State) (b2 : Byte) (d : List Byte) (tb : Bool) (fill : Byte) (rest : List Delivery),
    s.cfg.valid = true → s.phase = .wait → d.length = 32 →
    s.rxQueue = ⟨encode s.cfg (.gbwriteInit b2 d tb), fill⟩ :: rest →
    ∃ t, transaction s = .next t ∧ t.phase = .wait ∧ t.rxQueue = rest ∧
      t.txLog = s.txLog ++ [[crcFold s.cfg d]] ∧ ∀ a, a < 128 → t.fb.read a = 0x00

/-- Every delivered GBWRITE of correct length, whatever its sub-opcode, byte 2, trailing bit and draw, is
answered with exactly the checksum of its 32 payload bytes (44_gbwrite.md R130). The latched reply, on
which sub-opcode 0x80's answer rests, and the fold step are the spec's own decisions (92_eei_decisions.md D9,
D3; log entry 10). -/
def Obligations.DeliveredGbWriteAnswersThePayloadChecksum : Prop :=
  ∀ (s : State) (sub b2 : Byte) (d : List Byte) (tb : Bool) (fill : Byte) (rest : List Delivery),
    s.cfg.valid = true → s.phase = .wait → d.length = 32 →
    s.rxQueue = ⟨encodeFrame (s.cfg.opGbWrite :: sub :: b2 :: d) tb, fill⟩ :: rest →
    ∃ t, transaction s = .next t ∧ t.txLog = s.txLog ++ [[crcFold s.cfg d]]

/-- GBWRITE C0 and then GBREAD C0, delivered one after the other: the second reply has 33 bytes, the first
0x02 and the last the checksum of the 32 before it, for every table (95_test_vectors.md W5). The fold step and that
the GBREAD's receive leaves the slot as it is are the spec's own decisions (92_eei_decisions.md D3, D7; log
entries 10 and 6). -/
def Obligations.ConfigurationThenStatusRead : Prop :=
  ∀ (s : State) (b2 b2' : Byte) (d : List Byte) (tb tb' : Bool) (f f' : Byte) (rest : List Delivery),
    s.cfg.valid = true → s.phase = .wait → d.length = 32 →
    s.rxQueue = ⟨encode s.cfg (.gbwriteConfig b2 d tb), f⟩ :: ⟨encode s.cfg (.gbreadC0 b2' tb'), f'⟩ :: rest →
    ∃ t r, runSteps 4 s = .next t ∧ t.txLog = s.txLog ++ [[crcFold s.cfg d], r] ∧ t.rxQueue = rest ∧
      r.length = 33 ∧ r.getD 0 0 = 0x02 ∧ r.getD 32 0 = crcFold s.cfg (r.take 32)

/-- GBWRITE E0 and then GBREAD F0, delivered one after the other: the second reply has 33 bytes, 0x81 at
byte offset 8 and the checksum of the first 32 last, for every table (95_test_vectors.md W6). The fold step and that
the GBREAD's receive leaves the slot as it is are the spec's own decisions (92_eei_decisions.md D3, D7; log
entries 10 and 6). -/
def Obligations.DataSendThenPeripheralRead : Prop :=
  ∀ (s : State) (b2 b2' : Byte) (d : List Byte) (tb tb' : Bool) (f f' : Byte) (rest : List Delivery),
    s.cfg.valid = true → s.phase = .wait → d.length = 32 →
    s.rxQueue = ⟨encode s.cfg (.gbwriteSend b2 d tb), f⟩ :: ⟨encode s.cfg (.gbreadF0 b2' tb'), f'⟩ :: rest →
    ∃ t r, runSteps 4 s = .next t ∧ t.txLog = s.txLog ++ [[crcFold s.cfg d], r] ∧ t.rxQueue = rest ∧
      r.length = 33 ∧ r.getD 8 0 = 0x81 ∧ r.getD 32 0 = crcFold s.cfg (r.take 32)

/-- A frame of more than 384 bits is dropped without a reply, and a GBREAD C0 after it returns the frame's
bits where it reached the status slot, the draw in the rest of a partly filled byte and the old bytes
beyond, unverified (70_reset_and_hazards.md R178, R179). -/
def Obligations.LongFrameDestroysTheStatusSlot : Prop :=
  ∀ (s : State) (long : Delivery) (b2 : Byte) (tb : Bool) (f : Byte) (rest : List Delivery),
    s.cfg.valid = true → s.phase = .wait → 384 < long.bits.length →
    long.bits.length ≤ s.cfg.maxRxBits →
    s.rxQueue = long :: ⟨encode s.cfg (.gbreadC0 b2 tb), f⟩ :: rest →
    ∃ t r, runSteps 4 s = .next t ∧ t.txLog = s.txLog ++ [r] ∧ r.ShowsFrameInSlot 0x30 long s.fb

/-- A frame of more than 648 bits is dropped without a reply, and a GBREAD F0 after it shows it in the
peripheral slot in the same way (70_reset_and_hazards.md R178, R179). -/
def Obligations.LongFrameDestroysThePeripheralSlot : Prop :=
  ∀ (s : State) (long : Delivery) (b2 : Byte) (tb : Bool) (f : Byte) (rest : List Delivery),
    s.cfg.valid = true → s.phase = .wait → 648 < long.bits.length →
    long.bits.length ≤ s.cfg.maxRxBits →
    s.rxQueue = long :: ⟨encode s.cfg (.gbreadF0 b2 tb), f⟩ :: rest →
    ∃ t r, runSteps 4 s = .next t ∧ t.txLog = s.txLog ++ [r] ∧ r.ShowsFrameInSlot 0x51 long s.fb

/-! ### What a reply cannot depend on -/

/-- The draw `RX_FILL` reaches no reply of its own transaction: two transactions that differ only in it log
the same replies, and their buffers agree but for the byte the frame filled partly (20_memory.md R49;
41_dispatch.md R99). That the rest of that byte is a free draw and nothing beyond the frame changes is the
spec's own choice (92_eei_decisions.md D7; log entry 6). -/
def Obligations.DrawReachesNoReplyOfItsTransaction : Prop :=
  ∀ (s : State) (bits : List Bool) (f f' : Byte) (rest : List Delivery), s.cfg.valid = true →
    s.phase = .wait → bits.length ≤ s.cfg.maxRxBits →
    ∃ t t', transaction { s with rxQueue := ⟨bits, f⟩ :: rest } = .next t ∧
      transaction { s with rxQueue := ⟨bits, f'⟩ :: rest } = .next t' ∧ t'.txLog = t.txLog ∧
      ∀ a, a ≠ bits.length / 8 ∨ bits.length % 8 = 0 → t'.fb.read a = t.fb.read a

/-- While no frame is longer than 384 bits, so that none reaches a slot, no draw reaches any reply, its own
transaction's or a later one's: a run over the same frames with other draws logs the same replies, and
their buffers agree from 0x30 on (20_memory.md R49, R50; 41_dispatch.md R99; the draw is the spec's own
choice, 92_eei_decisions.md D7, log entry 6). The draw of a longer frame can reach a later GBREAD, as
`LongFrameDestroysTheStatusSlot` says. -/
def Obligations.DrawsOfShorterFramesReachNoReply : Prop :=
  ∀ (k : Nat) (s t : State) (q : List Delivery), q.map (·.bits) = s.rxQueue.map (·.bits) →
    (∀ d ∈ s.rxQueue, d.bits.length ≤ 384) → runSteps k s = .next t →
    ∃ t', runSteps k { s with rxQueue := q } = .next t' ∧ t'.txLog = t.txLog ∧ t'.phase = t.phase ∧
      ∀ a, 0x30 ≤ a → t'.fb.read a = t.fb.read a

/-- Byte 2 and the trailing bit are not inspected: two frames of a command's length that agree on every
other bit get the same replies, whatever the draws (30_encoding.md R64; 41_dispatch.md R99). That they are
not inspected is the spec's own reading (92_eei_decisions.md D11; log entry 17). -/
def Obligations.UninspectedBitsReachNoReply : Prop :=
  ∀ (s : State) (bits bits' : List Bool) (f f' : Byte) (rest : List Delivery), s.cfg.valid = true →
    s.phase = .wait → bits.length = 9 ∨ bits.length = 25 ∨ bits.length = 281 →
    bits'.length = bits.length →
    (∀ k, k < bits.length → ¬(16 ≤ k ∧ k < 24) → k + 1 ≠ bits.length →
      bits'.getD k false = bits.getD k false) →
    ∃ t t', transaction { s with rxQueue := ⟨bits, f⟩ :: rest } = .next t ∧
      transaction { s with rxQueue := ⟨bits', f'⟩ :: rest } = .next t' ∧ t'.txLog = t.txLog

/-- No command reads the bytes 0x24 to 0x2F and 0x72 to 0x7F: a dispatch over a buffer that differs only
there logs the same replies and leaves every other byte the same (20_memory.md R47). -/
def Obligations.UnusedBytesAreNeverRead : Prop :=
  ∀ (s : State) (fb' : Memory), s.cfg.valid = true → s.phase = .dispatch →
    (∀ a, ¬(0x24 ≤ a ∧ a ≤ 0x2F) → ¬(0x72 ≤ a ∧ a ≤ 0x7F) → fb'.read a = s.fb.read a) →
    ∃ t t', step s = .next t ∧ step { s with fb := fb' } = .next t' ∧ t'.txLog = t.txLog ∧
      t'.phase = t.phase ∧
      ∀ a, ¬(0x24 ≤ a ∧ a ≤ 0x2F) → ¬(0x72 ≤ a ∧ a ≤ 0x7F) → t'.fb.read a = t.fb.read a

/-- No command's effect depends on byte 2 or the trailing bit: two commands that differ only there do the
same in every state (30_encoding.md R64, R70). That they are not inspected is the spec's own reading
(92_eei_decisions.md D11; log entry 17). -/
def Obligations.CommandsIgnoreByteTwoAndTheTrailingBit : Prop :=
  ∀ (s : State) (sub b b' : Byte) (d : List Byte) (t t' : Bool),
    exec (.id t) s = exec (.id t') s ∧ exec (.reset t) s = exec (.reset t') s ∧
    exec (.gbreadC0 b t) s = exec (.gbreadC0 b' t') s ∧
    exec (.gbreadF0 b t) s = exec (.gbreadF0 b' t') s ∧
    exec (.gbreadOther sub b t) s = exec (.gbreadOther sub b' t') s ∧
    exec (.gbwriteInit b d t) s = exec (.gbwriteInit b' d t') s ∧
    exec (.gbwriteConfig b d t) s = exec (.gbwriteConfig b' d t') s ∧
    exec (.gbwriteSend b d t) s = exec (.gbwriteSend b' d t') s ∧
    exec (.gbwriteOther sub b d t) s = exec (.gbwriteOther sub b' d t') s

/-! ### The CRC Engine -/

/-- The laws of 40_crc_engine.md R85, for every table and seed: (a) 32 zero bytes give the table applied
32 times to the seed, which is 0 when the seed and entry 0 are; (b) leading zero bytes then leave the
accumulator 0, so 31 of them and b give entry b; (c) windows that differ in the last byte give two
entries at indices that differ as the bytes do, so a table of distinct entries tells them apart. They
follow from the fold step of R81, the spec's own reading (92_eei_decisions.md D3; log entry 10). -/
def Obligations.CrcLawsForEveryTable : Prop :=
  ∀ c : Config,
    crcFold c (List.replicate 32 0x00) = (crcLookup c)^[32] c.crcInit ∧
    (c.crcInit = 0x00 → crcLookup c 0x00 = 0x00 →
      (∀ k, crcFold c (List.replicate k 0x00) = 0x00) ∧
      ∀ b, crcFold c (List.replicate 31 0x00 ++ [b]) = crcLookup c b) ∧
    ∀ u : List Byte, u.length = 31 → ∃ x, ∀ b b',
      crcFold c (u ++ [b]) = crcLookup c (x ^^^ b) ∧ crcFold c (u ++ [b']) = crcLookup c (x ^^^ b') ∧
      (c.crcTable.length = 256 → c.crcTable.Nodup → b ≠ b' →
        crcFold c (u ++ [b]) ≠ crcFold c (u ++ [b']))

/-- Each listed entry of the default table is eight shifts of its index by the polynomial 0x85
(40_crc_engine.md R86). The table is the spec's own default (log entry 2). -/
def Obligations.DefaultTableFollowsItsDefinition : Prop :=
  ∀ x : Byte, crcLookup Config.default x = crcEntry x

/-- At the default table and seed the checksum is linear over exclusive-or (40_crc_engine.md R87 (a)). -/
def Obligations.DefaultCrcIsLinear : Prop :=
  ∀ u v : List Byte, u.length = v.length →
    crcFold Config.default (List.zipWith (· ^^^ ·) u v) =
      crcFold Config.default u ^^^ crcFold Config.default v

/-- At the default table and seed the fold equals the bit-serial register run over the window and one
zero byte (40_crc_engine.md R87). -/
def Obligations.DefaultCrcEqualsBitSerialForm : Prop :=
  ∀ window : List Byte, crcFold Config.default window = crcSerial window

/-- At the default table and seed the checksum is the remainder of the window, read most significant bit
first as a polynomial over GF(2) and multiplied by x^8, divided by x^8 + x^7 + x^2 + 1
(40_crc_engine.md R87 (b)). -/
def Obligations.DefaultCrcIsThePolynomialRemainder : Prop :=
  ∀ window : List Byte,
    let poly := fun bits : List Bool =>
      bits.foldl (fun p b => Polynomial.X * p + if b then 1 else 0) (0 : Polynomial (ZMod 2))
    let rem := poly (bitsOfByte (crcFold Config.default window))
    (∃ q, Polynomial.X ^ 8 * poly (bitsOfBytes window) =
      q * (Polynomial.X ^ 8 + Polynomial.X ^ 7 + Polynomial.X ^ 2 + 1) + rem) ∧ rem.degree < 8
end

