-- ==== Sys2Proof/Laws/Bits.lean ====
section
/-! SUPPORT. Bits and bytes: each byte is its eight bits, and a frame made of bytes gives them back. -/

namespace Sys2Proof

@[simp] theorem bitsOfByte_length (b : Byte) : (bitsOfByte b).length = 8 := rfl

@[simp] theorem bitsOfBytes_nil : bitsOfBytes [] = [] := rfl

@[simp] theorem bitsOfBytes_cons (b : Byte) (bs : List Byte) :
    bitsOfBytes (b :: bs) = bitsOfByte b ++ bitsOfBytes bs := rfl

@[simp] theorem bitsOfBytes_length (bs : List Byte) : (bitsOfBytes bs).length = 8 * bs.length := by
  induction bs with
  | nil => rfl
  | cons b bs ih => simp [ih]; omega

theorem bitsOfByte_ofBool8 (a b c d e f g h : Bool) :
    bitsOfByte (byteOfBits [a, b, c, d, e, f, g, h]) = [a, b, c, d, e, f, g, h] := by
  revert a b c d e f g h; decide

/-- Eight bits are the bits of the byte they make. -/
theorem bitsOfByte_byteOfBits {l : List Bool} (h : l.length = 8) : bitsOfByte (byteOfBits l) = l := by
  match l, h with
  | [a, b, c, d, e, f, g, h], _ => exact bitsOfByte_ofBool8 a b c d e f g h

theorem bitsOfByte_getElem (b : Byte) {i : Nat} (h : i < 8) : (bitsOfByte b)[i] = b.getMsbD i := by
  have : i = 0 ∨ i = 1 ∨ i = 2 ∨ i = 3 ∨ i = 4 ∨ i = 5 ∨ i = 6 ∨ i = 7 := by omega
  rcases this with rfl | rfl | rfl | rfl | rfl | rfl | rfl | rfl <;> rfl

/-- Bit `i` from the top of the byte made of eight bits is the `i`-th of them. -/
theorem getMsbD_byteOfBits {l : List Bool} (h : l.length = 8) {i : Nat} (hi : i < 8) :
    (byteOfBits l).getMsbD i = l[i] := by
  rw [← bitsOfByte_getElem _ hi]; simp only [bitsOfByte_byteOfBits h]

/-- Two bytes with the same bits from the top are equal. -/
theorem byte_eq_of_getMsbD {a b : Byte} (h : ∀ i < 8, a.getMsbD i = b.getMsbD i) : a = b := by
  apply BitVec.eq_of_getMsbD_eq
  intro i hi
  exact h i hi

/-- A byte is the byte its bits make. -/
@[simp] theorem byteOfBits_bitsOfByte (b : Byte) : byteOfBits (bitsOfByte b) = b :=
  byte_eq_of_getMsbD fun _ hi =>
    (getMsbD_byteOfBits (bitsOfByte_length b) hi).trans (bitsOfByte_getElem b hi)

/-- Frame byte `j`'s bit `i` from the top is frame bit `8j + i` (00_scope.md R13). -/
theorem frameByte_getMsbD {f : List Bool} {j i : Nat} (hf : 8 * j + 8 ≤ f.length) (hi : i < 8) :
    (frameByte f j).getMsbD i = f[8 * j + i] := by
  rw [frameByte, getMsbD_byteOfBits (by simp; omega) hi]; simp

theorem frameByte_bitsOfByte_append (b : Byte) (l : List Bool) : frameByte (bitsOfByte b ++ l) 0 = b := by
  rw [frameByte, Nat.mul_zero, List.drop_zero, List.take_left' (bitsOfByte_length b), byteOfBits_bitsOfByte]

theorem frameByte_bitsOfByte_append_succ (b : Byte) (l : List Bool) (j : Nat) :
    frameByte (bitsOfByte b ++ l) (j + 1) = frameByte l j := by
  have h : 8 * (j + 1) = (bitsOfByte b).length + 8 * j := by simp; omega
  rw [frameByte, frameByte, h, List.drop_length_add_append]

/-- A frame made of bytes, then anything, gives each byte back. -/
theorem frameByte_bitsOfBytes_append {bs : List Byte} {j : Nat} (h : j < bs.length) (l : List Bool) :
    frameByte (bitsOfBytes bs ++ l) j = bs[j] := by
  induction bs generalizing j with
  | nil => simp at h
  | cons b bs ih =>
    rw [bitsOfBytes_cons, List.append_assoc]
    cases j with
    | zero => simpa using frameByte_bitsOfByte_append b _
    | succ j => rw [frameByte_bitsOfByte_append_succ, ih (by simpa using h)]; rfl

/-- The byte a receive leaves, bit by bit (20_memory.md R49). -/
theorem receivedByte_getMsbD (f : List Bool) (fill : Byte) (j : Nat) {i : Nat} (hi : i < 8) :
    (receivedByte f fill j).getMsbD i = f.getD (8 * j + i) (fill.getMsbD i) := by
  rw [receivedByte, getMsbD_byteOfBits (by simp) hi]; simp

@[simp] theorem receivedBytes_length (f : List Bool) (fill : Byte) :
    (receivedBytes f fill).length = bytesReached f.length := by simp [receivedBytes]

theorem receivedBytes_getElem (f : List Bool) (fill : Byte) {j : Nat}
    (h : j < (receivedBytes f fill).length) : (receivedBytes f fill)[j] = receivedByte f fill j := by
  simp [receivedBytes]

end Sys2Proof
end

