-- ==== Sys2Proof/Laws/Memory.lean ====
section
/-! SUPPORT. The Frame Buffer's laws: a read after a write, what a write leaves alone, and that every
operation keeps the canonical form. The read laws hold for every list, canonical or not. -/

namespace Sys2Proof.Machine

@[simp] theorem Memory.read_nil (a : Nat) : Memory.read [] a = unlistedByte := rfl

theorem Memory.read_cons (c : Host.Cell) (m : Memory) (a : Nat) :
    Memory.read (c :: m) a = if c.1 = a then c.2 else Memory.read m a := by
  cases c; rfl

/-- An offset that no entry lists reads as the unlisted byte. -/
theorem Memory.read_of_not_listed {m : Memory} {a : Nat} (h : ∀ c ∈ m, c.1 ≠ a) :
    m.read a = unlistedByte := by
  induction m with
  | nil => rfl
  | cons c m ih =>
    rw [read_cons, if_neg (h c (by simp)), ih fun d hd => h d (by simp [hd])]

theorem Memory.read_filter_self (m : Memory) (a : Nat) :
    Memory.read (m.filter fun c => c.1 != a) a = unlistedByte :=
  read_of_not_listed fun c hc => by simpa using (List.mem_filter.mp hc).2

theorem Memory.read_filter_of_ne {a b : Nat} (m : Memory) (h : b ≠ a) :
    Memory.read (m.filter fun c => c.1 != a) b = m.read b := by
  induction m with
  | nil => rfl
  | cons c m ih =>
    by_cases hc : c.1 = a
    · rw [List.filter_cons_of_neg (by simpa using hc), ih, read_cons, if_neg (by omega)]
    · rw [List.filter_cons_of_pos (by simpa using hc), read_cons, read_cons, ih]

theorem Memory.read_insertCell {m : Memory} {c : Host.Cell} (h : ∀ d ∈ m, d.1 ≠ c.1) (a : Nat) :
    Memory.read (Memory.insertCell c m) a = if c.1 = a then c.2 else m.read a := by
  induction m with
  | nil => simp [insertCell, read_cons]
  | cons d m ih =>
    unfold insertCell
    split
    · rw [read_cons]
    · rw [read_cons, ih fun e he => h e (by simp [he]), read_cons]
      have := h d (by simp)
      split <;> split <;> first | rfl | omega

theorem Memory.filter_not_listed (m : Memory) (a : Nat) :
    ∀ d ∈ m.filter (fun c => c.1 != a), d.1 ≠ a := fun _ hd => by
  simpa using (List.mem_filter.mp hd).2

/-- A read after a write: the byte written there, every other byte as before. -/
theorem Memory.read_write (m : Memory) (a b : Nat) (v : Byte) :
    (m.write a v).read b = if b = a then v else m.read b := by
  unfold write
  by_cases hb : b = a
  · subst hb
    split
    · next h => rw [read_filter_self, h, if_pos rfl]
    · rw [read_insertCell (filter_not_listed m b), if_pos rfl, if_pos rfl]
  · rw [if_neg hb]
    split
    · exact read_filter_of_ne m hb
    · rw [read_insertCell (filter_not_listed m a), if_neg (by simpa using fun h => hb h.symm),
        read_filter_of_ne m hb]

@[simp] theorem Memory.read_write_self (m : Memory) (a : Nat) (v : Byte) : (m.write a v).read a = v := by
  simp [read_write]

theorem Memory.read_write_of_ne {a b : Nat} (m : Memory) (v : Byte) (h : b ≠ a) :
    (m.write a v).read b = m.read b := by
  simp [read_write, h]

/-- A read after a run of writes: the byte of the run that lies there, every other byte as before. -/
theorem Memory.read_writeBytes (m : Memory) (a b : Nat) (vs : List Byte) :
    (m.writeBytes a vs).read b = if a ≤ b then vs.getD (b - a) (m.read b) else m.read b := by
  induction vs generalizing m a with
  | nil => simp [writeBytes]
  | cons v vs ih =>
    rw [writeBytes, ih, read_write]
    by_cases h1 : a + 1 ≤ b
    · obtain ⟨k, rfl⟩ : ∃ k, b = a + 1 + k := ⟨b - (a + 1), by omega⟩
      rw [if_pos h1, if_neg (by omega), if_pos (by omega),
        show a + 1 + k - a = k + 1 by omega, show a + 1 + k - (a + 1) = k by omega]
      rfl
    · rw [if_neg h1]
      by_cases h2 : b = a
      · subst h2; simp
      · rw [if_neg h2, if_neg (by omega)]

@[simp] theorem Memory.readBytes_length (m : Memory) (a n : Nat) : (m.readBytes a n).length = n := by
  simp [readBytes]

@[simp] theorem Memory.readBytes_getElem (m : Memory) (a n : Nat) {i : Nat}
    (h : i < (m.readBytes a n).length) : (m.readBytes a n)[i] = m.read (a + i) := by
  simp [readBytes]

@[simp] theorem Memory.readBytes_one (m : Memory) (a : Nat) : m.readBytes a 1 = [m.read a] := rfl

/-- A window is the same in two buffers that agree on its bytes. -/
theorem Memory.readBytes_congr {m m' : Memory} {a n : Nat} (h : ∀ i < n, m.read (a + i) = m'.read (a + i)) :
    m.readBytes a n = m'.readBytes a n := by
  refine List.map_congr_left fun i hi => h i (List.mem_range.mp hi)

/-- The canonical form, as propositions. -/
theorem Memory.wf_iff (m : Memory) : m.wf = true ↔
    m.Pairwise (fun c d => c.1 < d.1) ∧ ∀ c ∈ m, c.1 < bufferBytes ∧ c.2 ≠ unlistedByte := by
  simp [wf, List.all_eq_true]

@[simp] theorem Memory.wf_nil : Memory.wf [] = true := rfl

theorem Memory.mem_insertCell {m : Memory} {c d : Host.Cell} :
    d ∈ Memory.insertCell c m ↔ d = c ∨ d ∈ m := by
  induction m with
  | nil => simp [insertCell]
  | cons e m ih => unfold insertCell; split <;> simp [ih]; tauto

theorem Memory.pairwise_insertCell {m : Memory} {c : Host.Cell} (hm : m.Pairwise fun a b => a.1 < b.1)
    (h : ∀ d ∈ m, d.1 ≠ c.1) : (Memory.insertCell c m).Pairwise fun a b => a.1 < b.1 := by
  induction m with
  | nil => simp [insertCell]
  | cons e m ih =>
    obtain ⟨he, hm⟩ := List.pairwise_cons.mp hm
    have hne := h e (by simp)
    unfold insertCell
    split
    · next hlt =>
      refine List.pairwise_cons.mpr ⟨fun d hd => ?_, List.pairwise_cons.mpr ⟨he, hm⟩⟩
      rcases List.mem_cons.mp hd with rfl | hd
      · exact hlt
      · exact lt_trans hlt (he d hd)
    · refine List.pairwise_cons.mpr ⟨fun d hd => ?_, ih hm fun d hd => h d (by simp [hd])⟩
      rcases mem_insertCell.mp hd with rfl | hd
      · omega
      · exact he d hd

/-- A write inside the buffer keeps the canonical form. -/
theorem Memory.wf_write {m : Memory} (h : m.wf = true) {a : Nat} (ha : a < bufferBytes) (v : Byte) :
    (m.write a v).wf = true := by
  rw [wf_iff] at *
  obtain ⟨hp, hc⟩ := h
  have hp' := hp.filter fun c => c.1 != a
  have hc' : ∀ c ∈ m.filter (fun c => c.1 != a), c.1 < bufferBytes ∧ c.2 ≠ unlistedByte :=
    fun c h => hc c (List.mem_of_mem_filter h)
  unfold write
  split
  · exact ⟨hp', hc'⟩
  · next hv =>
    refine ⟨pairwise_insertCell hp' (filter_not_listed m a), fun c hcm => ?_⟩
    rcases mem_insertCell.mp hcm with rfl | h
    · exact ⟨ha, hv⟩
    · exact hc' c h

/-- A run of writes inside the buffer keeps the canonical form. -/
theorem Memory.wf_writeBytes {m : Memory} (h : m.wf = true) {a : Nat} (vs : List Byte)
    (ha : a + vs.length ≤ bufferBytes) : (m.writeBytes a vs).wf = true := by
  induction vs generalizing m a with
  | nil => exact h
  | cons v vs ih =>
    rw [writeBytes]
    simp only [List.length_cons] at ha
    exact ih (wf_write h (by omega) v) (by omega)

/-- After the clear every byte of the buffer reads 0x00 (44_gbwrite.md R131). -/
theorem Memory.read_clear (m : Memory) (a : Nat) :
    m.clear.read a = if a < bufferBytes then 0x00 else m.read a := by
  unfold clear
  by_cases ha : a < bufferBytes
  · rw [if_pos ha]
    exact read_of_not_listed fun c hc => by
      have := of_decide_eq_true (List.mem_filter.mp hc).2
      omega
  · rw [if_neg ha]
    induction m with
    | nil => rfl
    | cons c m ih =>
      by_cases hc : bufferBytes ≤ c.1
      · rw [List.filter_cons_of_pos (by simpa using hc), read_cons, read_cons, ih]
      · rw [List.filter_cons_of_neg (by simpa using hc), ih, read_cons, if_neg (by omega)]

/-- The clear keeps the canonical form. -/
theorem Memory.wf_clear {m : Memory} (h : m.wf = true) : m.clear.wf = true := by
  rw [wf_iff] at *
  exact ⟨h.1.filter _, fun c hc => h.2 c (List.mem_of_mem_filter hc)⟩

theorem Memory.writeBytes_zeros (m : Memory) (a n : Nat) :
    m.writeBytes a (List.replicate n 0x00) = m.filter fun c => !(decide (a ≤ c.1) && decide (c.1 < a + n)) := by
  induction n generalizing m a with
  | zero =>
    simp only [List.replicate_zero, writeBytes]
    exact (List.filter_eq_self.mpr fun c _ => by simp; omega).symm
  | succ n ih =>
    rw [List.replicate_succ, writeBytes, ih, write, if_pos (show (0 : Byte) = unlistedByte from rfl),
      List.filter_filter]
    refine List.filter_congr fun c _ => ?_
    rw [Bool.eq_iff_iff]; simp; omega

/-- The clear is the loop of 44_gbwrite.md R131: 0x00 written to each of the 128 offsets. -/
theorem Memory.clear_eq_writeBytes (m : Memory) :
    m.clear = m.writeBytes 0 (List.replicate 128 0x00) := by
  rw [writeBytes_zeros]
  refine List.filter_congr fun c _ => ?_
  by_cases h : c.1 < 128
  · rw [decide_eq_false (show ¬bufferBytes ≤ c.1 by unfold bufferBytes; omega)]; simp [h]
  · rw [decide_eq_true (show bufferBytes ≤ c.1 by unfold bufferBytes; omega)]; simp [h]

end Sys2Proof.Machine
end

