-- ==== Sys2Proof/Laws/State.lean ====
section
/-! SUPPORT. One lemma per field per update of the state, each true by rfl, so that no later proof
unfolds a record update. -/

namespace Sys2Proof.Machine

variable (s : State)

@[simp] theorem State.writeByte_cfg (a v) : (s.writeByte a v).cfg = s.cfg := rfl
@[simp] theorem State.writeByte_phase (a v) : (s.writeByte a v).phase = s.phase := rfl
@[simp] theorem State.writeByte_rxN (a v) : (s.writeByte a v).rxN = s.rxN := rfl
@[simp] theorem State.writeByte_fb (a v) : (s.writeByte a v).fb = s.fb.write a v := rfl
@[simp] theorem State.writeByte_txLog (a v) : (s.writeByte a v).txLog = s.txLog := rfl
@[simp] theorem State.writeByte_rxQueue (a v) : (s.writeByte a v).rxQueue = s.rxQueue := rfl

@[simp] theorem State.writeBytes_cfg (a vs) : (s.writeBytes a vs).cfg = s.cfg := rfl
@[simp] theorem State.writeBytes_phase (a vs) : (s.writeBytes a vs).phase = s.phase := rfl
@[simp] theorem State.writeBytes_rxN (a vs) : (s.writeBytes a vs).rxN = s.rxN := rfl
@[simp] theorem State.writeBytes_fb (a vs) : (s.writeBytes a vs).fb = s.fb.writeBytes a vs := rfl
@[simp] theorem State.writeBytes_txLog (a vs) : (s.writeBytes a vs).txLog = s.txLog := rfl
@[simp] theorem State.writeBytes_rxQueue (a vs) : (s.writeBytes a vs).rxQueue = s.rxQueue := rfl

@[simp] theorem State.clearBuffer_cfg : s.clearBuffer.cfg = s.cfg := rfl
@[simp] theorem State.clearBuffer_phase : s.clearBuffer.phase = s.phase := rfl
@[simp] theorem State.clearBuffer_rxN : s.clearBuffer.rxN = s.rxN := rfl
@[simp] theorem State.clearBuffer_fb : s.clearBuffer.fb = s.fb.clear := rfl
@[simp] theorem State.clearBuffer_txLog : s.clearBuffer.txLog = s.txLog := rfl
@[simp] theorem State.clearBuffer_rxQueue : s.clearBuffer.rxQueue = s.rxQueue := rfl

@[simp] theorem State.reply_cfg (r) : (s.reply r).cfg = s.cfg := rfl
@[simp] theorem State.reply_phase (r) : (s.reply r).phase = s.phase := rfl
@[simp] theorem State.reply_rxN (r) : (s.reply r).rxN = s.rxN := rfl
@[simp] theorem State.reply_fb (r) : (s.reply r).fb = s.fb := rfl
@[simp] theorem State.reply_txLog (r) : (s.reply r).txLog = s.txLog ++ [r] := rfl
@[simp] theorem State.reply_rxQueue (r) : (s.reply r).rxQueue = s.rxQueue := rfl

@[simp] theorem receive_cfg (d) : (receive s d).cfg = s.cfg := rfl
@[simp] theorem receive_phase (d) : (receive s d).phase = .dispatch := rfl
@[simp] theorem receive_rxN (d) : (receive s d).rxN = d.bits.length := rfl
/-- Not a simp lemma: `receive_read` (Laws/Ops.lean) says what a byte is after a receive. -/
theorem receive_fb (d) :
    (receive s d).fb = s.fb.writeBytes 0 (receivedBytes d.bits d.fill) := rfl
@[simp] theorem receive_txLog (d) : (receive s d).txLog = s.txLog := rfl
@[simp] theorem receive_rxQueue (d) : (receive s d).rxQueue = s.rxQueue := rfl

@[simp] theorem State.powerOn_cfg (c fbp) : (State.powerOn c fbp).cfg = c := rfl
@[simp] theorem State.powerOn_phase (c fbp) : (State.powerOn c fbp).phase = .init := rfl
@[simp] theorem State.powerOn_fb (c fbp) : (State.powerOn c fbp).fb = Memory.writeBytes [] 0 fbp := rfl
@[simp] theorem State.powerOn_txLog (c fbp) : (State.powerOn c fbp).txLog = [] := rfl
@[simp] theorem State.powerOn_rxQueue (c fbp) : (State.powerOn c fbp).rxQueue = [] := rfl

end Sys2Proof.Machine
end

