-- ==== Sys2Proof/Laws/Ops.lean ====
section
/-! SUPPORT. What each shared operation can do, said once. -/

namespace Sys2Proof.Machine

/-- The end of a dispatch answers the state with its phase back at WAIT. -/
@[simp] theorem endTransaction_eq (s t : State) :
    endTransaction s = .next t ↔ t = { s with phase := .wait } := by
  simp [endTransaction, eq_comm]

@[simp] theorem drop_eq (s : State) : drop s = .next { s with phase := .wait } := rfl

/-- CRC8 reads nothing but its 32 window bytes and the parameters (40_crc_engine.md R82). -/
theorem State.crc8_congr {s t : State} {a : Nat} (hc : s.cfg = t.cfg)
    (h : ∀ i < 32, s.fb.read (a + i) = t.fb.read (a + i)) : s.crc8 a = t.crc8 a := by
  rw [State.crc8, State.crc8, hc, Memory.readBytes_congr h]

@[simp] theorem checksumReply_cfg (s : State) : (checksumReply s).cfg = s.cfg := rfl
@[simp] theorem checksumReply_phase (s : State) : (checksumReply s).phase = s.phase := rfl
@[simp] theorem checksumReply_rxN (s : State) : (checksumReply s).rxN = s.rxN := rfl
@[simp] theorem checksumReply_rxQueue (s : State) : (checksumReply s).rxQueue = s.rxQueue := rfl

/-- The common part of GBWRITE writes one byte of the buffer, the checksum (44_gbwrite.md R130). -/
@[simp] theorem checksumReply_fb (s : State) :
    (checksumReply s).fb = s.fb.write sendChecksum (s.crc8 sendWindow) := rfl

/-- The common part of GBWRITE replies the checksum (44_gbwrite.md R130). -/
@[simp] theorem checksumReply_txLog (s : State) :
    (checksumReply s).txLog = s.txLog ++ [[s.crc8 sendWindow]] := by
  simp [checksumReply]

@[simp] theorem stageByte_cfg (s : State) (a v p q) : (stageByte s a v p q).cfg = s.cfg := rfl
@[simp] theorem stageByte_phase (s : State) (a v p q) : (stageByte s a v p q).phase = s.phase := rfl
@[simp] theorem stageByte_rxN (s : State) (a v p q) : (stageByte s a v p q).rxN = s.rxN := rfl
@[simp] theorem stageByte_txLog (s : State) (a v p q) : (stageByte s a v p q).txLog = s.txLog := rfl
@[simp] theorem stageByte_rxQueue (s : State) (a v p q) : (stageByte s a v p q).rxQueue = s.rxQueue := rfl

/-- Staging writes the marked byte and then the checksum of the slot as it then stands
(44_gbwrite.md R132, R133). -/
@[simp] theorem stageByte_fb (s : State) (a : Nat) (v : Byte) (p q : Nat) :
    (stageByte s a v p q).fb = (s.fb.write a v).write q ((s.writeByte a v).crc8 p) := rfl

/-- The common part of GBWRITE keeps the buffer's canonical form. -/
theorem checksumReply_wf {s : State} (h : s.fb.wf = true) : (checksumReply s).fb.wf = true :=
  Memory.wf_write h (show sendChecksum < bufferBytes by decide) _

/-- Staging inside the buffer keeps its canonical form. -/
theorem stageByte_wf {s : State} (h : s.fb.wf = true) {a q : Nat} (ha : a < bufferBytes)
    (hq : q < bufferBytes) (v : Byte) (p : Nat) : (stageByte s a v p q).fb.wf = true :=
  Memory.wf_write (Memory.wf_write h ha v) hq _

/-- A receive of what the buffer can hold keeps its canonical form. -/
theorem receive_wf {s : State} (h : s.fb.wf = true) {d : Delivery} (hd : d.bits.length ≤ 8 * bufferBytes) :
    (receive s d).fb.wf = true :=
  Memory.wf_writeBytes h _ (by simp [bytesReached, bufferBytes] at *; omega)

/-- A byte of the buffer after a receive: bits of the frame and of the draw within the frame's reach,
as before beyond it (20_memory.md R49, R50). -/
theorem receive_read (s : State) (d : Delivery) (a : Nat) :
    (receive s d).fb.read a =
      if a < bytesReached d.bits.length then receivedByte d.bits d.fill a else s.fb.read a := by
  rw [receive_fb, Memory.read_writeBytes, if_pos (Nat.zero_le a), Nat.sub_zero]
  split
  · next h =>
    rw [List.getD_eq_getElem _ _ (by simpa using h), receivedBytes_getElem]
  · next h =>
    rw [List.getD_eq_default _ _ (by simpa using h)]

end Sys2Proof.Machine
end

