-- ==== Sys2Proof/Laws/Frame.lean ====
section
/-! SUPPORT. The frame as the Dispatcher finds it: a received frame is found as it was delivered, whatever
the draw, and its whole bytes are the buffer's. -/

namespace Sys2Proof.Machine

@[simp] theorem State.frame_length (s : State) : s.frame.length = s.rxN := by simp [State.frame]

theorem State.frame_getElem (s : State) {k : Nat} (h : k < s.frame.length) :
    s.frame[k] = (s.fb.read (k / 8)).getMsbD (k % 8) := by
  simp [State.frame, Memory.frameBit]

/-- A whole byte of the received frame is the buffer's byte at the same offset (20_memory.md R49). -/
theorem State.frameByte_frame (s : State) {j : Nat} (h : 8 * j + 8 ≤ s.rxN) :
    frameByte s.frame j = s.fb.read j :=
  byte_eq_of_getMsbD fun i hi => by
    rw [frameByte_getMsbD (by simpa using h) hi, State.frame_getElem,
      show (8 * j + i) / 8 = j by omega, show (8 * j + i) % 8 = i by omega]

/-- A delivered frame is the frame that is dispatched, for every draw `RX_FILL`. -/
@[simp] theorem receive_frame (s : State) (d : Delivery) : (receive s d).frame = d.bits := by
  refine List.ext_getElem (by simp) fun k hk hk' => ?_
  have hr : k / 8 < bytesReached d.bits.length := by unfold bytesReached; omega
  rw [State.frame_getElem, receive_read, if_pos hr, receivedByte_getMsbD _ _ _ (by omega),
    show 8 * (k / 8) + k % 8 = k by omega, List.getD_eq_getElem _ _ hk']

end Sys2Proof.Machine
end

