-- ==== Sys2Proof/Laws/PerInstr.lean ====
section
/-! SUPPORT. Per-instruction families: one lemma per constructor of `Instr`. -/

namespace Sys2Proof

@[simp] theorem encodeFrame_length (bytes : List Byte) (t : Bool) :
    (encodeFrame bytes t).length = 8 * bytes.length + 1 := by simp [encodeFrame]

@[simp] theorem idFrame_length (c : Config) (t : Bool) : (idFrame c t).length = 9 := by simp [idFrame]

@[simp] theorem resetFrame_length (c : Config) (t : Bool) : (resetFrame c t).length = 9 := by
  simp [resetFrame]

@[simp] theorem gbreadFrame_length (c : Config) (s b : Byte) (t : Bool) :
    (gbreadFrame c s b t).length = 25 := by simp [gbreadFrame]

@[simp] theorem gbwriteFrame_length (c : Config) (s b : Byte) (d : List Byte) (t : Bool) :
    (gbwriteFrame c s b d t).length = 8 * (d.length + 3) + 1 := by simp [gbwriteFrame]

@[simp] theorem rawFrame_length (n : Nat) (bytes : List Byte) : (rawFrame n bytes).length = n := by
  simp [rawFrame]

namespace Laws.EncodedLength

/-- The frame of a well-formed command has its format's length, and a receive can deliver it
(30_encoding.md R61 to R63; 20_memory.md R49). -/
def Statement (i : Instr) : Prop :=
  ∀ c : Config, c.valid = true → i.wellFormed c = true →
    (encode c i).length = i.frameLength ∧ (encode c i).length ≤ c.maxRxBits

theorem bits_received {c : Config} (h : c.valid = true) : 281 ≤ c.maxRxBits := by
  simp only [Config.valid, Config.sizesOk, Bool.and_eq_true, decide_eq_true_eq] at h
  exact h.2.1.2

theorem short (bits) : Statement (.short bits) := fun c hc hi => by
  have := bits_received hc
  simp only [Instr.wellFormed, decide_eq_true_eq] at hi
  simp only [encode, Instr.frameLength, true_and]; omega

theorem id (t) : Statement (.id t) := fun c hc _ => by
  have := bits_received hc
  simp [encode, Instr.frameLength]; omega

theorem reset (t) : Statement (.reset t) := fun c hc _ => by
  have := bits_received hc
  simp [encode, Instr.frameLength]; omega

theorem idResetWrongLength (bits) : Statement (.idResetWrongLength bits) := fun c _ hi => by
  simp only [Instr.wellFormed, Bool.and_eq_true, decide_eq_true_eq] at hi
  exact ⟨rfl, hi.1.2⟩

theorem gbreadC0 (b2 t) : Statement (.gbreadC0 b2 t) := fun c hc _ => by
  have := bits_received hc
  simp [encode, Instr.frameLength]; omega

theorem gbreadF0 (b2 t) : Statement (.gbreadF0 b2 t) := fun c hc _ => by
  have := bits_received hc
  simp [encode, Instr.frameLength]; omega

theorem gbreadOther (sub b2 t) : Statement (.gbreadOther sub b2 t) := fun c hc _ => by
  have := bits_received hc
  simp [encode, Instr.frameLength]; omega

theorem gbreadWrongLength (bits) : Statement (.gbreadWrongLength bits) := fun c _ hi => by
  simp only [Instr.wellFormed, Bool.and_eq_true, decide_eq_true_eq] at hi
  exact ⟨rfl, hi.1.2⟩

theorem gbwriteInit (b2 d t) : Statement (.gbwriteInit b2 d t) := fun c hc hi => by
  have := bits_received hc
  simp only [Instr.wellFormed, beq_iff_eq] at hi
  simp [encode, Instr.frameLength, hi]; omega

theorem gbwriteConfig (b2 d t) : Statement (.gbwriteConfig b2 d t) := fun c hc hi => by
  have := bits_received hc
  simp only [Instr.wellFormed, beq_iff_eq] at hi
  simp [encode, Instr.frameLength, hi]; omega

theorem gbwriteSend (b2 d t) : Statement (.gbwriteSend b2 d t) := fun c hc hi => by
  have := bits_received hc
  simp only [Instr.wellFormed, beq_iff_eq] at hi
  simp [encode, Instr.frameLength, hi]; omega

theorem gbwriteOther (sub b2 d t) : Statement (.gbwriteOther sub b2 d t) := fun c hc hi => by
  have := bits_received hc
  simp only [Instr.wellFormed, Bool.and_eq_true, beq_iff_eq] at hi
  simp [encode, Instr.frameLength, hi.2]; omega

theorem gbwriteWrongLength (bits) : Statement (.gbwriteWrongLength bits) := fun c _ hi => by
  simp only [Instr.wellFormed, Bool.and_eq_true, decide_eq_true_eq] at hi
  exact ⟨rfl, hi.1.2⟩

theorem unrecognised (bits) : Statement (.unrecognised bits) := fun c _ hi => by
  simp only [Instr.wellFormed, Bool.and_eq_true, decide_eq_true_eq] at hi
  exact ⟨rfl, hi.1.1.1.1.2⟩

end Laws.EncodedLength

end Sys2Proof
end

