-- ==== Sys2Proof/Laws/Step.lean ====
section
/-! SUPPORT. What a step can do, said once. -/

namespace Sys2Proof.Machine

/-- A configuration is accepted exactly when it is valid (00_scope.md R9, R10). -/
theorem configRefusal_eq_none {c : Config} : configRefusal c = none ↔ c.valid = true := by
  unfold configRefusal Config.valid
  cases c.opcodesDistinct <;> cases c.sizesOk <;> simp

/-- Every case of a step that answers a next state. -/
theorem step_cases {s t : State} (h : step s = .next t) :
    s.cfg.valid = true ∧
      (s.phase = .init ∧ t = { s with phase := .wait } ∨
        s.phase = .wait ∧ s.rxQueue = [] ∧ t = s ∨
        (∃ d rest, s.phase = .wait ∧ s.rxQueue = d :: rest ∧ d.bits.length ≤ s.cfg.maxRxBits ∧
          t = receive { s with rxQueue := rest } d) ∨
        s.phase = .dispatch ∧ exec (decode s.cfg s.frame) s = .next t) := by
  unfold step at h
  split at h
  · cases h
  · next hc =>
    refine ⟨configRefusal_eq_none.mp hc, ?_⟩
    split at h
    · next hp => exact .inl ⟨hp, (Host.Outcome.next.inj h).symm⟩
    · next hp =>
      unfold transportStep at h
      split at h
      · next hq => exact .inr (.inl ⟨hp, hq, (Host.Outcome.next.inj h).symm⟩)
      · next d rest hq =>
        split at h
        · next hn => exact .inr (.inr (.inl ⟨d, rest, hp, hq, hn, (Host.Outcome.next.inj h).symm⟩))
        · cases h
    · next hp => exact .inr (.inr (.inr ⟨hp, h⟩))

/-- Every case of a command: what it does to the log and to the buffer. All else but the phase, which
goes to WAIT, is unchanged. -/
theorem exec_cases (i : Instr) (s : State) :
    ∃ fb log, exec i s = .next { s with phase := .wait, fb := fb, txLog := log } ∧
      (log = s.txLog ∧ fb = s.fb ∨ log = s.txLog ++ [identRecord] ∧ fb = s.fb ∨
        (∃ slot, log = s.txLog ++ [s.fb.readBytes slot slotBytes] ∧ fb = s.fb) ∨
        log = s.txLog ++ [[s.crc8 sendWindow]] ∧
          (fb = (checksumReply s).fb ∨
            fb = (checksumReply s).fb.clear ∨
            fb = (stageByte (checksumReply s) statusSlot 0x02 statusSlot statusChecksum).fb ∨
            fb = (stageByte (checksumReply s) peripheralMarker 0x81 peripheralSlot peripheralChecksum).fb)) := by
  cases i with
  | short | idResetWrongLength | gbreadOther | gbreadWrongLength | gbwriteWrongLength | unrecognised =>
    exact ⟨_, _, rfl, .inl ⟨rfl, rfl⟩⟩
  | id | reset => exact ⟨_, _, rfl, .inr (.inl ⟨rfl, rfl⟩)⟩
  | gbreadC0 | gbreadF0 => exact ⟨_, _, rfl, .inr (.inr (.inl ⟨_, rfl, rfl⟩))⟩
  | gbwriteInit =>
    exact ⟨(checksumReply s).fb.clear,
      s.txLog ++ [[s.crc8 sendWindow]], by simp [exec, execGbwriteInit, endTransaction],
      .inr (.inr (.inr ⟨rfl, .inr (.inl rfl)⟩))⟩
  | gbwriteConfig =>
    exact ⟨(stageByte (checksumReply s) statusSlot 0x02 statusSlot statusChecksum).fb,
      s.txLog ++ [[s.crc8 sendWindow]], by simp [exec, execGbwriteConfig, endTransaction],
      .inr (.inr (.inr ⟨rfl, .inr (.inr (.inl rfl))⟩))⟩
  | gbwriteSend =>
    exact ⟨(stageByte (checksumReply s) peripheralMarker 0x81 peripheralSlot peripheralChecksum).fb,
      s.txLog ++ [[s.crc8 sendWindow]], by simp [exec, execGbwriteSend, endTransaction],
      .inr (.inr (.inr ⟨rfl, .inr (.inr (.inr rfl))⟩))⟩
  | gbwriteOther =>
    exact ⟨(checksumReply s).fb,
      s.txLog ++ [[s.crc8 sendWindow]], by simp [exec, execGbwriteOther, endTransaction],
      .inr (.inr (.inr ⟨rfl, .inl rfl⟩))⟩

end Sys2Proof.Machine
end

