-- ==== Sys2Proof/Laws/Run.lean ====
section
/-! SUPPORT. Runs and transactions, step by step. -/

namespace Sys2Proof.Machine

@[simp] theorem runSteps_zero (s : State) : runSteps 0 s = .next s := rfl

/-- A run goes on from the state its first step answers. -/
theorem runSteps_succ_of_next {s t : State} (h : step s = .next t) (k : Nat) :
    runSteps (k + 1) s = runSteps k t := by
  have hc : Sys2Proof.core.step s = .next t := h
  show Host.Core.run Sys2Proof.core (k + 1) s = _
  simp only [Host.Core.run, hc]; rfl

/-- A run that answers a state took a first step to a state. -/
theorem step_of_runSteps {s t : State} {k : Nat} (h : runSteps (k + 1) s = .next t) :
    ∃ u, step s = .next u ∧ runSteps k u = .next t := by
  cases hs : step s with
  | next u => exact ⟨u, rfl, by rw [← h, runSteps_succ_of_next hs]⟩
  | fault r => cases r
  | refused r =>
    have hc : Sys2Proof.core.step s = .refused r := hs
    change Host.Core.run Sys2Proof.core (k + 1) s = _ at h
    simp only [Host.Core.run, hc] at h; cases h

/-- A transaction whose first step answers a state is that state's step. -/
theorem transaction_of_next {s t : State} (h : step s = .next t) : transaction s = step t := by
  rw [transaction, h]

end Sys2Proof.Machine
end

