-- ==== Sys2Proof/Tests/Slice0.lean ====
section
/-! SUPPORT. The model's own tests. Expected values come from the vectors of 95_test_vectors.md and from
the formats of 30_encoding.md; frames are written out bit by bit in wire order. The last part shows, for
every statement with hypotheses, a concrete state and operands that meet them all. -/

namespace Sys2Proof.Tests

set_option Elab.async false

open Sys2Proof.Machine

/-! ### Well-formedness: each check refuses an ill-formed command -/

/-- The default parameters with the smallest limit that 00_scope.md R9 allows. -/
def smallest : Config := { Config.default with maxRxBits := 281 }

theorem test_wf_short_of_nine_bits_refused :
    (Instr.short (List.replicate 9 false)).wellFormed Config.default = false := by decide +kernel

theorem test_wf_reset_with_the_id_opcode_refused :
    (Instr.reset true).wellFormed { Config.default with opReset := 0x00 } = false := by decide +kernel

/-- 9 bits, 282 bits at a limit of 281, and 10 bits of a GBREAD. -/
theorem test_wf_ident_wrong_length_refused :
    (Instr.idResetWrongLength (List.replicate 9 false)).wellFormed Config.default = false ∧
    (Instr.idResetWrongLength (List.replicate 282 false)).wellFormed smallest = false ∧
    (Instr.idResetWrongLength
      [false, false, false, true, false, false, true, true, true, true]).wellFormed Config.default = false := by
  decide +kernel

theorem test_wf_gbread_other_with_a_slot_sub_opcode_refused :
    (Instr.gbreadOther 0xC0 0 true).wellFormed Config.default = false ∧
    (Instr.gbreadOther 0xF0 0 true).wellFormed Config.default = false := by decide +kernel

/-- Prefix 0x13 at 8, 25 and 282 bits at a limit of 281, and a frame of another opcode. -/
theorem test_wf_gbread_wrong_length_refused :
    (Instr.gbreadWrongLength (bitsOfByte 0x13)).wellFormed Config.default = false ∧
    (Instr.gbreadWrongLength (bitsOfByte 0x13 ++ List.replicate 17 false)).wellFormed Config.default = false ∧
    (Instr.gbreadWrongLength (bitsOfByte 0x13 ++ List.replicate 274 false)).wellFormed smallest = false ∧
    (Instr.gbreadWrongLength (List.replicate 24 false)).wellFormed Config.default = false := by decide +kernel

/-- A payload of 31 or 33 bytes. -/
theorem test_wf_gbwrite_payload_size_refused :
    (Instr.gbwriteInit 0 (List.replicate 31 0) true).wellFormed Config.default = false ∧
    (Instr.gbwriteConfig 0 (List.replicate 33 0) true).wellFormed Config.default = false ∧
    (Instr.gbwriteSend 0 (List.replicate 31 0) true).wellFormed Config.default = false ∧
    (Instr.gbwriteOther 0 0 (List.replicate 33 0) true).wellFormed Config.default = false := by decide +kernel

theorem test_wf_gbwrite_other_with_a_named_sub_opcode_refused :
    (Instr.gbwriteOther 0x80 0 (List.replicate 32 0) true).wellFormed Config.default = false ∧
    (Instr.gbwriteOther 0xC0 0 (List.replicate 32 0) true).wellFormed Config.default = false ∧
    (Instr.gbwriteOther 0xE0 0 (List.replicate 32 0) true).wellFormed Config.default = false := by decide +kernel

/-- Prefix 0x14 at 8, 281 and 282 bits at a limit of 281, and a frame of another opcode. -/
theorem test_wf_gbwrite_wrong_length_refused :
    (Instr.gbwriteWrongLength (bitsOfByte 0x14)).wellFormed Config.default = false ∧
    (Instr.gbwriteWrongLength (bitsOfByte 0x14 ++ List.replicate 273 false)).wellFormed Config.default = false ∧
    (Instr.gbwriteWrongLength (bitsOfByte 0x14 ++ List.replicate 274 false)).wellFormed smallest = false ∧
    (Instr.gbwriteWrongLength (List.replicate 280 false)).wellFormed Config.default = false := by decide +kernel

/-- Each of the four opcodes, 8 bits and 282 bits at a limit of 281. -/
theorem test_wf_unrecognised_refused :
    (Instr.unrecognised (bitsOfByte 0x00 ++ [true])).wellFormed Config.default = false ∧
    (Instr.unrecognised (bitsOfByte 0xFF ++ [true])).wellFormed Config.default = false ∧
    (Instr.unrecognised (bitsOfByte 0x13 ++ [true])).wellFormed Config.default = false ∧
    (Instr.unrecognised (bitsOfByte 0x14 ++ [true])).wellFormed Config.default = false ∧
    (Instr.unrecognised (bitsOfByte 0x01)).wellFormed Config.default = false ∧
    (Instr.unrecognised (bitsOfByte 0x01 ++ List.replicate 274 true)).wellFormed smallest = false := by
  decide +kernel

/-- 00_scope.md R10: (a) and the four pairs of (b) are refused, (c) is not. -/
theorem test_wf_opcode_collisions_refused :
    { Config.default with opGbRead := 0x14 }.valid = false ∧
    { Config.default with opGbRead := 0x00 }.valid = false ∧
    { Config.default with opGbRead := 0xFF }.valid = false ∧
    { Config.default with opGbWrite := 0x00 }.valid = false ∧
    { Config.default with opGbWrite := 0xFF }.valid = false ∧
    { Config.default with opReset := 0x00 }.valid = true := by decide +kernel

/-- 00_scope.md R9: `MAX_RX_BITS` from 281 to 1024, 256 table entries. -/
theorem test_wf_parameter_sizes :
    { Config.default with maxRxBits := 280 }.valid = false ∧
    { Config.default with maxRxBits := 281 }.valid = true ∧
    { Config.default with maxRxBits := 1024 }.valid = true ∧
    { Config.default with maxRxBits := 1025 }.valid = false ∧
    { Config.default with crcTable := List.replicate 255 0 }.valid = false ∧
    { Config.default with crcTable := List.replicate 257 0 }.valid = false := by decide +kernel

/-! ### Decoding: one frame for every constructor, from 30_encoding.md R61 to R66 -/

/-- The eight bits of 0x13, and of the other bytes the frames below are made of. -/
def b13 : List Bool := [false, false, false, true, false, false, true, true]
def b14 : List Bool := [false, false, false, true, false, true, false, false]
def b00 : List Bool := [false, false, false, false, false, false, false, false]
def bFF : List Bool := [true, true, true, true, true, true, true, true]
def b80 : List Bool := [true, false, false, false, false, false, false, false]
def bC0 : List Bool := [true, true, false, false, false, false, false, false]
def bE0 : List Bool := [true, true, true, false, false, false, false, false]
def bF0 : List Bool := [true, true, true, true, false, false, false, false]
def b2D : List Bool := [false, false, true, false, true, true, false, true]

/-- The payload whose first byte is 0x2D, whose last is 0x80 and whose others are 0x00, in wire order. -/
def bPayload : List Bool := b2D ++ List.replicate 240 false ++ b80

/-- The same payload as bytes. -/
def payload : List Byte := 0x2D :: List.replicate 30 0x00 ++ [0x80]

theorem test_decode_short :
    decode Config.default [] = .short [] ∧
    decode Config.default [true, false, true] = .short [true, false, true] ∧
    decode Config.default b13 = .short b13 := by decide +kernel

theorem test_decode_id :
    decode Config.default (b00 ++ [false]) = .id false ∧
    decode Config.default (b00 ++ [true]) = .id true := by decide +kernel

theorem test_decode_reset :
    decode Config.default (bFF ++ [false]) = .reset false ∧
    decode Config.default (bFF ++ [true]) = .reset true := by decide +kernel

/-- V-ID-4 and V-ID-5: 10 bits of 00 C0, and FF 00. -/
theorem test_decode_ident_wrong_length :
    decode Config.default (b00 ++ [true, true]) = .idResetWrongLength (b00 ++ [true, true]) ∧
    decode Config.default (bFF ++ b00) = .idResetWrongLength (bFF ++ b00) := by decide +kernel

theorem test_decode_gbread_c0 :
    decode Config.default (b13 ++ bC0 ++ b2D ++ [true]) = .gbreadC0 0x2D true := by decide +kernel

theorem test_decode_gbread_f0 :
    decode Config.default (b13 ++ bF0 ++ b2D ++ [false]) = .gbreadF0 0x2D false := by decide +kernel

theorem test_decode_gbread_other :
    decode Config.default (b13 ++ bE0 ++ b2D ++ [true]) = .gbreadOther 0xE0 0x2D true := by decide +kernel

/-- V-GR-6 and V-GR-7: 24 and 26 bits. -/
theorem test_decode_gbread_wrong_length :
    decode Config.default (b13 ++ bC0 ++ b00) = .gbreadWrongLength (b13 ++ bC0 ++ b00) ∧
    decode Config.default (b13 ++ bC0 ++ b00 ++ [true, false]) =
      .gbreadWrongLength (b13 ++ bC0 ++ b00 ++ [true, false]) := by decide +kernel

theorem test_decode_gbwrite_init :
    decode Config.default (b14 ++ b80 ++ b2D ++ bPayload ++ [true]) = .gbwriteInit 0x2D payload true := by
  decide +kernel

theorem test_decode_gbwrite_config :
    decode Config.default (b14 ++ bC0 ++ b2D ++ bPayload ++ [false]) = .gbwriteConfig 0x2D payload false := by
  decide +kernel

theorem test_decode_gbwrite_send :
    decode Config.default (b14 ++ bE0 ++ b2D ++ bPayload ++ [true]) = .gbwriteSend 0x2D payload true := by
  decide +kernel

theorem test_decode_gbwrite_other :
    decode Config.default (b14 ++ bF0 ++ b2D ++ bPayload ++ [true]) = .gbwriteOther 0xF0 0x2D payload true := by
  decide +kernel

/-- V-GW-8, V-GW-9 and V-GW-12: 280, 282 and 25 bits. -/
theorem test_decode_gbwrite_wrong_length :
    decode Config.default (b14 ++ b80 ++ b00 ++ bPayload) =
      .gbwriteWrongLength (b14 ++ b80 ++ b00 ++ bPayload) ∧
    decode Config.default (b14 ++ b80 ++ b00 ++ bPayload ++ [true, false]) =
      .gbwriteWrongLength (b14 ++ b80 ++ b00 ++ bPayload ++ [true, false]) ∧
    decode Config.default (b14 ++ bC0 ++ b00 ++ [true]) =
      .gbwriteWrongLength (b14 ++ bC0 ++ b00 ++ [true]) := by decide +kernel

/-- The lengths of ID, GBREAD and GBWRITE with an opcode that is none of the four. -/
theorem test_decode_unrecognised :
    decode Config.default (b80 ++ [true]) = .unrecognised (b80 ++ [true]) ∧
    decode Config.default (b2D ++ bC0 ++ b00 ++ [true]) = .unrecognised (b2D ++ bC0 ++ b00 ++ [true]) ∧
    decode Config.default (b2D ++ b80 ++ b00 ++ bPayload ++ [true]) =
      .unrecognised (b2D ++ b80 ++ b00 ++ bPayload ++ [true]) := by decide +kernel

/-- The encoder writes the frames of 30_encoding.md R61 to R63. -/
theorem test_encode_formats :
    encode Config.default (.reset true) = bFF ++ [true] ∧
    encode Config.default (.gbreadF0 0x2D false) = b13 ++ bF0 ++ b2D ++ [false] ∧
    encode Config.default (.gbwriteSend 0x2D payload true) = b14 ++ bE0 ++ b2D ++ bPayload ++ [true] := by
  decide +kernel

/-- The notation of 30_encoding.md R70 at the default opcodes, its defaults for `t` and `b` among it; RAW
truncated (V-ID-4) and padded. -/
theorem test_notation_frames :
    idFrame Config.default = b00 ++ [true] ∧ resetFrame Config.default = bFF ++ [true] ∧
    gbreadFrame Config.default 0xC0 = b13 ++ bC0 ++ b00 ++ [true] ∧
    gbreadFrame Config.default 0xF0 0x2D false = b13 ++ bF0 ++ b2D ++ [false] ∧
    gbwriteFrame Config.default 0x80 0x00 payload = b14 ++ b80 ++ b00 ++ bPayload ++ [true] ∧
    rawFrame 10 [0x00, 0xC0] = b00 ++ [true, true] ∧ rawFrame 0 [0xFF] = [] ∧
    rawFrame 10 [0xFF] = bFF ++ [false, false] := by decide +kernel

/-- Words of spec/opcode_table.json: `FB[0]` in bits 15 to 8, `FB[1]` in bits 7 to 0. -/
theorem test_table_words :
    decodeTableWord 8 0x00 = some (.short b00) ∧
    decodeTableWord 16 0x0000 = some (.id false) ∧ decodeTableWord 16 0xFF00 = some (.reset false) ∧
    decodeTableWord 16 0x13C0 = some (.gbreadC0 0 false) ∧
    decodeTableWord 16 0x13F0 = some (.gbreadF0 0 false) ∧
    decodeTableWord 16 0x1300 = some (.gbreadOther 0 0 false) ∧
    decodeTableWord 16 0x1480 = some (.gbwriteInit 0 (List.replicate 32 0) false) ∧
    decodeTableWord 16 0x14C0 = some (.gbwriteConfig 0 (List.replicate 32 0) false) ∧
    decodeTableWord 16 0x14E0 = some (.gbwriteSend 0 (List.replicate 32 0) false) ∧
    decodeTableWord 16 0x1400 = some (.gbwriteOther 0 0 (List.replicate 32 0) false) ∧
    decodeTableWord 16 0x80C0 = some (.unrecognised (b80 ++ bC0)) := by decide +kernel

/-! ### Steps -/

/-- The next state, if there is one. -/
def after (o : Host.Outcome State Fault Refusal) : Option State :=
  match o with
  | .next t => some t
  | .fault _ => none
  | .refused _ => none

/-- A state at the default parameters that dispatches a frame of `n` bits, the buffer holding `low` from
0x00 up and `slots` from 0x30 up. -/
def dispatching (n : Nat) (low : List Byte) (slots : List Byte := []) : State :=
  { State.reset with
    phase := .dispatch, rxN := n, fb := (Memory.writeBytes [] 0 low).writeBytes 0x30 slots }

/-- A state in WAIT, one reply sent and two stray bytes in the buffer, with Receives to come. -/
def waiting (q : List Delivery) : State :=
  { State.reset with phase := .wait, fb := [(0x31, 0x77), (0x7F, 0x5A)], txLog := [[0x33]], rxQueue := q }

/-- The bytes 0x01 to 0x20 of V-CRC-12. -/
def ascending : List Byte := (List.range 32).map fun i => BitVec.ofNat 8 (i + 1)

/-- V-CRC-7, V-CRC-12, V-CRC-17 and V-CRC-8. -/
theorem test_crc_vectors :
    crcFold Config.default (0x02 :: List.replicate 31 0x00) = 0x08 ∧
    crcFold Config.default ascending = 0xE9 ∧
    crcFold { Config.default with crcInit := 0xFF } (List.replicate 32 0x00) = 0xF6 ∧
    crcFold Config.default (List.replicate 8 0x00 ++ 0x81 :: List.replicate 23 0x00) = 0x48 := by
  decide +kernel

/-- V-RX-2 with the draw 0x2A: `FB[3]` is the trailing bit and the draw's low seven bits, and the bytes
beyond the frame stay. -/
theorem test_receive_places_25_bits :
    (after (step (waiting [⟨b13 ++ bC0 ++ b00 ++ [true], 0x2A⟩]))).map
      (fun t => (t.fb, t.rxN, t.phase, t.rxQueue)) =
      some ([(0, 0x13), (1, 0xC0), (3, 0xAA), (0x31, 0x77), (0x7F, 0x5A)], 25, .dispatch, []) := by
  decide +kernel

/-- V-RX-5: three bits 101 and the draw 0x0F. -/
theorem test_receive_places_3_bits :
    (after (step (waiting [⟨[true, false, true], 0x0F⟩]))).map (fun t => t.fb.read 0) = some 0xAF := by
  decide +kernel

/-- P1's last frame: 8 bits of an ID give no reply. -/
theorem test_step_short :
    (after (step (dispatching 8 [0x00, 0xD5]))).map (fun t => (t.phase, t.txLog, t.fb)) =
      some (.wait, [], [(1, 0xD5)]) := by decide +kernel

/-- V-ID-1. -/
theorem test_step_id :
    (after (step (dispatching 9 [0x00, 0xD5]))).map (fun t => (t.phase, t.txLog, t.fb)) =
      some (.wait, [[0x00, 0x03, 0x00]], [(1, 0xD5)]) := by decide +kernel

/-- V-ID-6: staged slots stay. -/
theorem test_step_reset :
    (after (step (dispatching 9 [0xFF, 0x80] [0x02, 0x44]))).map (fun t => (t.txLog, t.fb)) =
      some ([[0x00, 0x03, 0x00]], [(0, 0xFF), (1, 0x80), (0x30, 0x02), (0x31, 0x44)]) := by decide +kernel

/-- V-ID-5. -/
theorem test_step_ident_wrong_length :
    (after (step (dispatching 16 [0xFF, 0x00]))).map (fun t => (t.phase, t.txLog, t.fb)) =
      some (.wait, [], [(0, 0xFF)]) := by decide +kernel

/-- V-GR-3: a bad checksum is not verified. -/
theorem test_step_gbread_c0 :
    (after (step (dispatching 25 [0x13, 0xC0, 0x7F, 0x80]
      (0x02 :: List.replicate 31 0x00 ++ [0x55, 0x99])))).map (·.txLog) =
      some [0x02 :: List.replicate 31 0x00 ++ [0x55]] := by decide +kernel

/-- V-GR-2: the slot from 0x51 to 0x71. -/
theorem test_step_gbread_f0 :
    (after (step (dispatching 25 [0x13, 0xF0, 0x00, 0x80]
      (List.replicate 33 0x66 ++ List.replicate 8 0x00 ++ 0x81 :: List.replicate 23 0x00 ++ [0x48, 0x99])))).map
      (·.txLog) = some [List.replicate 8 0x00 ++ 0x81 :: List.replicate 23 0x00 ++ [0x48]] := by
  decide +kernel

/-- V-GR-4. -/
theorem test_step_gbread_other :
    (after (step (dispatching 25 [0x13, 0xE0, 0x00, 0x80] [0x02]))).map (fun t => (t.phase, t.txLog)) =
      some (.wait, []) := by decide +kernel

/-- V-GR-6. -/
theorem test_step_gbread_wrong_length :
    (after (step (dispatching 24 [0x13, 0xC0, 0x00] [0x02]))).map (fun t => (t.phase, t.txLog)) =
      some (.wait, []) := by decide +kernel

/-- V-GW-1: the reply is the checksum from before the clear. -/
theorem test_step_gbwrite_init :
    (after (step (dispatching 281 (0x14 :: 0x80 :: 0x00 :: List.replicate 32 0xFF ++ [0x80])
      (List.replicate 80 0x77)))).map (fun t => (t.phase, t.txLog, t.fb)) =
      some (.wait, [[0x0A]], []) := by decide +kernel

/-- V-GW-3. -/
theorem test_step_gbwrite_config :
    (after (step (dispatching 281 (0x14 :: 0xC0 :: 0x00 :: ascending ++ [0x80])))).map
      (fun t => (t.txLog, t.fb.read 0x23, t.fb.read 0x30, t.fb.read 0x50, t.fb.read 0x59)) =
      some ([[0xE9]], 0xE9, 0x02, 0x08, 0x00) := by decide +kernel

/-- V-GW-5. -/
theorem test_step_gbwrite_send :
    (after (step (dispatching 281 (0x14 :: 0xE0 :: 0x00 :: List.replicate 32 0xFF ++ [0x80])))).map
      (fun t => (t.txLog, t.fb.read 0x23, t.fb.read 0x59, t.fb.read 0x71, t.fb.read 0x30)) =
      some ([[0x0A]], 0x0A, 0x81, 0x48, 0x00) := by decide +kernel

/-- V-GW-7. -/
theorem test_step_gbwrite_other :
    (after (step (dispatching 281 (0x14 :: 0x55 :: 0x00 :: ascending ++ [0x80])))).map
      (fun t => (t.txLog, t.fb)) =
      some ([[0xE9]], Memory.writeBytes [] 0 (0x14 :: 0x55 :: 0x00 :: ascending ++ [0xE9])) := by
  decide +kernel

/-- V-GW-8: no clear and no checksum at 280 bits. -/
theorem test_step_gbwrite_wrong_length :
    (after (step (dispatching 280 [0x14, 0x80, 0x00, 0x05] [0x44]))).map (fun t => (t.txLog, t.fb)) =
      some ([], [(0, 0x14), (1, 0x80), (3, 0x05), (0x30, 0x44)]) := by decide +kernel

/-- V-RX-7: 400 bits of opcode 0x55. -/
theorem test_step_unrecognised :
    (after (step (dispatching 400 [0x55, 0x55] [0x55, 0x55]))).map (fun t => (t.phase, t.txLog, t.fb)) =
      some (.wait, [], [(0, 0x55), (1, 0x55), (0x30, 0x55), (0x31, 0x55)]) := by decide +kernel

/-- V-CRC-3: one byte of a reply leaves most significant bit first (20_memory.md R56). -/
theorem test_reply_bits :
    Reply.wireBits [0x85, 0x01] = [true, false, false, false, false, true, false, true,
      false, false, false, false, false, false, false, true] := by decide +kernel

/-! ### Witnesses: every statement's hypotheses are met -/

/-- A table of distinct entries other than the default one, and other opcodes: RESET shares ID's. -/
def otherConfig : Config where
  opId := 0x77
  opReset := 0x77
  opGbRead := 0x01
  opGbWrite := 0x02
  crcTable := (List.range 256).map fun i => BitVec.ofNat 8 (i + 1)
  crcInit := 0x5A
  maxRxBits := 281

/-- Both frames have `n` bits, and agree on each but bits 16 to 23 and the last. -/
def agreeWhereInspected (bits bits' : List Bool) (n : Nat) : Bool :=
  bits.length == n && bits'.length == bits.length &&
    (List.range bits.length).all fun k =>
      decide (16 ≤ k ∧ k < 24) || k + 1 == bits.length || bits'.getD k false == bits.getD k false

/-- A GBWRITE frame with sub-opcode 0x80, 0xC0 or 0xE0 and the payload above. -/
def writeFrame (sub : List Bool) : List Bool := b14 ++ sub ++ b2D ++ bPayload ++ [true]

theorem test_witness_valid_configurations :
    Config.default.valid = true ∧ smallest.valid = true ∧ otherConfig.valid = true := by decide +kernel

theorem test_witness_PowerOnState :
    (List.replicate 128 (0xA5 : Byte)).length = 128 ∧
    after (step State.reset) = some { State.reset with phase := .wait } := by decide +kernel

theorem test_witness_InvariantAtPowerOn :
    otherConfig.valid = true ∧ ((List.range 128).map fun i => (BitVec.ofNat 8 i : Byte)).length = 128 := by
  decide +kernel

/-- The invariant with a listed buffer, a reply, the largest received length and a step from it. -/
def lively : State := { dispatching 1024 [0x55, 0x01] [0x02] with txLog := [[0x33], [0x00, 0x03, 0x00]] }

theorem test_witness_InvariantKeptByEveryStep :
    lively.Inv ∧ after (step lively) = some { lively with phase := .wait } :=
  ⟨⟨by decide +kernel, by decide +kernel, fun _ => by decide +kernel, by decide +kernel⟩, by decide +kernel⟩

theorem test_witness_RunsNeverStop :
    (waiting [⟨writeFrame bC0, 0x00⟩, ⟨[], 0xFF⟩]).Inv ∧
      (waiting [⟨writeFrame bC0, 0x00⟩, ⟨[], 0xFF⟩]).ContractKept := by
  refine ⟨⟨by decide +kernel, by decide +kernel, fun _ => by decide +kernel, by decide +kernel⟩, ?_⟩
  unfold State.ContractKept
  decide +kernel

theorem test_witness_HardwareInitialisationEntersWait :
    State.reset.cfg.valid = true ∧ State.reset.phase = .init := by decide +kernel

theorem test_witness_WaitWithoutFrameKeepsState :
    (waiting []).cfg.valid = true ∧ (waiting []).phase = .wait ∧ (waiting []).rxQueue = [] := by decide +kernel

/-- All four ways of the loop happen. -/
theorem test_witness_PhaseAdvancesOnlyAlongTheLoop :
    (after (step State.reset)).map (·.phase) = some .wait ∧
    (after (step (waiting []))).map (·.phase) = some .wait ∧
    (after (step (waiting [⟨[], 0⟩]))).map (·.phase) = some .dispatch ∧
    (after (step (dispatching 0 []))).map (·.phase) = some .wait := by decide +kernel

/-- Both holders change the buffer. -/
theorem test_witness_OnlyTheOwnerChangesTheBuffer :
    (after (step (waiting [⟨b13, 0⟩]))).map (fun t => t.fb == (waiting [⟨b13, 0⟩]).fb) = some false ∧
    (after (step (dispatching 281 [0x14, 0x80]))).map
      (fun t => t.fb == (dispatching 281 [0x14, 0x80]).fb) = some false := by decide +kernel

/-- The premises of every statement about a dispatch by its length and opcode: `valid`, the phase, the
length and the two bytes of the prefix. -/
def meets (s : State) (n : Nat) (op sub : Byte) : Bool :=
  s.cfg.valid && s.phase == .dispatch && s.rxN == n && s.fb.read 0 == op && s.fb.read 1 == sub

theorem test_witness_StepRunsTheDecodedCommand :
    meets (dispatching 9 [0x00, 0x80]) 9 0x00 0x80 = true := by decide +kernel

theorem test_witness_DispatchEqualsTheSpecsPseudocode :
    meets (dispatching 281 [0x14, 0xE0, 0x01] [0x09]) 281 0x14 0xE0 = true := by decide +kernel

/-- Each of the five collisions of 00_scope.md R10, and an accepted configuration. -/
theorem test_witness_OpcodeCollisionsRefused :
    { Config.default with opGbRead := 0x14 }.opGbRead = { Config.default with opGbRead := 0x14 }.opGbWrite ∧
    { Config.default with opGbRead := 0x00 }.opGbRead = { Config.default with opGbRead := 0x00 }.opId ∧
    { Config.default with opGbRead := 0xFF }.opGbRead = { Config.default with opGbRead := 0xFF }.opReset ∧
    { Config.default with opGbWrite := 0x00 }.opGbWrite = { Config.default with opGbWrite := 0x00 }.opId ∧
    { Config.default with opGbWrite := 0xFF }.opGbWrite = { Config.default with opGbWrite := 0xFF }.opReset ∧
    Config.default.valid = true := by decide +kernel

/-- Table sizes 255 and 257, limits 280 and 1025. -/
theorem test_witness_BadParameterSizesRefused :
    Config.default.opcodesDistinct = true ∧
    (List.replicate 255 (0 : Byte)).length ≠ 256 ∧ (List.replicate 257 (0 : Byte)).length ≠ 256 ∧
    280 < 281 ∧ 1024 < 1025 ∧
    { State.reset with cfg := { Config.default with maxRxBits := 1025 } }.cfg.opcodesDistinct = true := by
  decide +kernel

/-- One bit over the limit of 281. -/
def oversized : State := { waiting [⟨List.replicate 282 true, 0x00⟩] with cfg := smallest }

theorem test_witness_OversizedDeliveryRefused :
    oversized.cfg.valid = true ∧ oversized.phase = .wait ∧
    oversized.rxQueue = [⟨List.replicate 282 true, 0x00⟩] ∧ oversized.cfg.maxRxBits < 282 := by decide +kernel

/-- Lengths 0, 8, 9 and 1024: with and without a partly filled last byte, and the limit. -/
theorem test_witness_ReceivePlacesTheFrame :
    (waiting [⟨b00 ++ [true], 0x55⟩]).cfg.valid = true ∧ (waiting [⟨b00 ++ [true], 0x55⟩]).phase = .wait ∧
    (waiting [⟨b00 ++ [true], 0x55⟩]).rxQueue = [⟨b00 ++ [true], 0x55⟩] ∧
    (b00 ++ [true]).length % 8 ≠ 0 ∧ 6 < 8 - (b00 ++ [true]).length % 8 ∧ 8 < (b00 ++ [true]).length ∧
    ([] : List Bool).length ≤ Config.default.maxRxBits ∧ b00.length % 8 = 0 ∧
    (List.replicate 1024 true).length ≤ Config.default.maxRxBits ∧
    ((List.replicate 1024 true).length + 7) / 8 ≤ 128 ∧
    (after (step (waiting [⟨[], 0x55⟩]))).map (fun t => t.rxQueue == (waiting [⟨[], 0x55⟩]).rxQueue) =
      some false := by decide +kernel

/-- A well-formed command of every constructor, at the ends of the lengths its check allows. -/
theorem test_witness_EncodeThenDecode :
    (Instr.short []).wellFormed smallest = true ∧ (Instr.short b13).wellFormed smallest = true ∧
    (Instr.id false).wellFormed smallest = true ∧ (Instr.reset true).wellFormed smallest = true ∧
    (Instr.idResetWrongLength (bFF ++ [true, false])).wellFormed smallest = true ∧
    (Instr.idResetWrongLength (b00 ++ List.replicate 273 true)).wellFormed smallest = true ∧
    (Instr.gbreadC0 0xFF true).wellFormed smallest = true ∧ (Instr.gbreadF0 0x00 false).wellFormed smallest = true ∧
    (Instr.gbreadOther 0xC1 0x00 true).wellFormed smallest = true ∧
    (Instr.gbreadWrongLength (b13 ++ [false])).wellFormed smallest = true ∧
    (Instr.gbreadWrongLength (b13 ++ List.replicate 273 true)).wellFormed smallest = true ∧
    (Instr.gbwriteInit 0x01 payload true).wellFormed smallest = true ∧
    (Instr.gbwriteConfig 0x01 payload true).wellFormed smallest = true ∧
    (Instr.gbwriteSend 0x01 payload true).wellFormed smallest = true ∧
    (Instr.gbwriteOther 0x81 0x01 payload true).wellFormed smallest = true ∧
    (Instr.gbwriteWrongLength (b14 ++ [true])).wellFormed smallest = true ∧
    (Instr.gbwriteWrongLength (b14 ++ List.replicate 272 true)).wellFormed smallest = true ∧
    (Instr.unrecognised (b80 ++ [true])).wellFormed smallest = true ∧
    (Instr.unrecognised (b80 ++ List.replicate 273 true)).wellFormed smallest = true := by decide +kernel

/-- A configuration with `OP_RESET` equal to `OP_ID` and one with them apart, every named sub-opcode and one
that is none, and bits of a RAW frame up to its last and to its bytes' last. -/
theorem test_witness_NotatedFramesDecode :
    otherConfig.valid = true ∧ otherConfig.opReset = otherConfig.opId ∧ smallest.valid = true ∧
    smallest.opReset ≠ smallest.opId ∧ payload.length = 32 ∧
    (0x55 : Byte) ∉ ([0x80, 0xC0, 0xE0, 0xF0] : List Byte) ∧
    9 < 10 ∧ 9 < 8 * ([0x00, 0xC0] : List Byte).length ∧ 7 < 10 ∧ 7 < 8 * ([0xFF] : List Byte).length := by
  decide +kernel

/-- The empty frame and one of the largest length. -/
theorem test_witness_DecodeThenEncode :
    ([] : List Bool).length ≤ otherConfig.maxRxBits ∧
    (List.replicate 281 true).length ≤ otherConfig.maxRxBits := by decide +kernel

theorem test_witness_DeliveredCommandIsTheOneThatRuns :
    (waiting [⟨encode Config.default (.gbwriteSend 0x2D payload true), 0x7F⟩]).cfg.valid = true ∧
    (Instr.gbwriteSend 0x2D payload true).wellFormed Config.default = true ∧
    (waiting [⟨writeFrame bE0, 0x7F⟩]).rxQueue =
      [⟨encode Config.default (.gbwriteSend 0x2D payload true), 0x7F⟩] := by decide +kernel

theorem test_witness_FetchedTableWordRuns : State.reset.cfg = Config.default := rfl

/-- 8 bits and none. -/
theorem test_witness_ShortFramesDropped :
    meets (dispatching 8 [0x00]) 8 0x00 0x00 = true ∧ meets (dispatching 0 [0x14, 0x80]) 0 0x14 0x80 = true := by
  decide +kernel

/-- 9, 25, 281 and 1024 bits of opcode 0x12. -/
theorem test_witness_UnrecognisedOpcodeDropped :
    meets (dispatching 9 [0x12]) 9 0x12 0x00 = true ∧ meets (dispatching 25 [0x12, 0xC0]) 25 0x12 0xC0 = true ∧
    meets (dispatching 281 [0x12, 0x80]) 281 0x12 0x80 = true ∧
    meets (dispatching 1024 [0x12]) 1024 0x12 0x00 = true := by decide +kernel

/-- Each opcode just below and just above its length, and at 9 bits. -/
theorem test_witness_WrongLengthDropped :
    meets (dispatching 10 [0x00]) 10 0x00 0x00 = true ∧ meets (dispatching 10 [0xFF]) 10 0xFF 0x00 = true ∧
    meets (dispatching 9 [0x13, 0xC0]) 9 0x13 0xC0 = true ∧ meets (dispatching 24 [0x13, 0xC0]) 24 0x13 0xC0 = true ∧
    meets (dispatching 26 [0x13, 0xC0]) 26 0x13 0xC0 = true ∧ meets (dispatching 9 [0x14, 0x80]) 9 0x14 0x80 = true ∧
    meets (dispatching 280 [0x14, 0x80]) 280 0x14 0x80 = true ∧
    meets (dispatching 282 [0x14, 0x80]) 282 0x14 0x80 = true := by decide +kernel

theorem test_witness_GbReadOtherSubOpcodeDropped :
    meets (dispatching 25 [0x13, 0xC1]) 25 0x13 0xC1 = true ∧ meets (dispatching 25 [0x13, 0xEF]) 25 0x13 0xEF = true := by
  decide +kernel

theorem test_witness_ResetAndIdAnswerIdentity :
    meets (dispatching 9 [0x00, 0x80]) 9 0x00 0x80 = true ∧
    meets (dispatching 9 [0xFF, 0x00] [0x02]) 9 0xFF 0x00 = true := by decide +kernel

theorem test_witness_GbReadAnswersTheSlot :
    meets (dispatching 25 [0x13, 0xC0] [0x02, 0x03]) 25 0x13 0xC0 = true ∧
    meets (dispatching 25 [0x13, 0xF0] [0x02, 0x03]) 25 0x13 0xF0 = true := by decide +kernel

theorem test_witness_EveryGbWriteAnswersItsChecksum :
    meets (dispatching 281 [0x14, 0x80, 0x00, 0x11]) 281 0x14 0x80 = true ∧
    meets (dispatching 281 [0x14, 0x7F, 0x00, 0x11]) 281 0x14 0x7F = true := by decide +kernel

/-- A received GBWRITE of each kind, the ends of the other sub-opcodes among them. -/
theorem test_witness_ReceivedGbWritesRun :
    meets (dispatching 281 [0x14, 0x80]) 281 0x14 0x80 = true ∧ meets (dispatching 281 [0x14, 0xC0]) 281 0x14 0xC0 = true ∧
    meets (dispatching 281 [0x14, 0xE0]) 281 0x14 0xE0 = true ∧ meets (dispatching 281 [0x14, 0xFF]) 281 0x14 0xFF = true ∧
    meets (dispatching 281 [0x14, 0x00]) 281 0x14 0x00 = true := by decide +kernel

/-- Running the staging commands again, as their statements do. -/
theorem test_witness_ConfigurationAndDataSendRunAgain :
    ((after (exec (.gbwriteConfig 0 payload true) (waiting []))).bind fun t =>
      after (exec (.gbwriteConfig 1 payload false) t)).isSome = true ∧
    ((after (exec (.gbwriteSend 0 payload true) (waiting []))).bind fun t =>
      after (exec (.gbwriteSend 1 payload false) t)).isSome = true := by decide +kernel

/-- A changed byte under each of the four commands: offset 0x7F by the clear, 0x23, 0x50 and 0x71. -/
theorem test_witness_CommandsWriteOnlyTheirBytes :
    (waiting []).fb.read 0x7F = 0x5A ∧
    (after (exec (.gbwriteInit 0 payload true) (waiting []))).map (·.fb.read 0x7F) = some 0x00 ∧
    (dispatching 281 [0x14, 0, 0, 1]).fb.read 0x23 = 0x00 ∧
    (after (exec (.gbwriteOther 0 0 payload true) (dispatching 281 [0x14, 0, 0, 1]))).map
      (fun t => t.fb.read 0x23 == 0x00) = some false ∧
    (waiting []).fb.read 0x50 = 0x00 ∧ (waiting []).fb.read 0x71 = 0x00 ∧
    (after (exec (.gbwriteConfig 0 payload true) (waiting []))).map (fun t => t.fb.read 0x50 == 0x00) = some false ∧
    (after (exec (.gbwriteSend 0 payload true) (waiting []))).map (·.fb.read 0x71) = some 0x48 := by
  decide +kernel

/-- A step without and one with a reply. -/
theorem test_witness_AtMostOneReplyPerStep :
    (after (step (waiting [⟨b13, 0⟩]))).map (·.txLog) = some [[0x33]] ∧
    (after (step (dispatching 9 [0xFF]))).map (·.txLog) = some [[0x00, 0x03, 0x00]] := by decide +kernel

/-- Two steps from one frame to its reply. -/
theorem test_witness_RepliesNeverOutnumberFrames :
    (after (runSteps 2 (waiting [⟨bFF ++ [true], 0⟩]))).map (fun t => (t.txLog.length, t.openFrames)) =
      some (2, 0) := by decide +kernel

theorem test_witness_RepliesLeaveMostSignificantBitFirst :
    32 < (List.replicate 33 (0x01 : Byte)).length ∧ 7 < 8 := by decide +kernel

theorem test_witness_DeliveredInitializationClearsAnyBuffer :
    (waiting [⟨writeFrame b80, 0x7F⟩]).cfg.valid = true ∧ (waiting [⟨writeFrame b80, 0x7F⟩]).phase = .wait ∧
    payload.length = 32 ∧ (waiting [⟨writeFrame b80, 0x7F⟩]).rxQueue =
      [⟨encode Config.default (.gbwriteInit 0x2D payload true), 0x7F⟩] := by decide +kernel

theorem test_witness_DeliveredGbWriteAnswersThePayloadChecksum :
    (waiting [⟨writeFrame bF0, 0x00⟩]).cfg.valid = true ∧ (waiting [⟨writeFrame bF0, 0x00⟩]).phase = .wait ∧
    payload.length = 32 ∧ (waiting [⟨writeFrame bF0, 0x00⟩]).rxQueue =
      [⟨encodeFrame (Config.default.opGbWrite :: 0xF0 :: 0x2D :: payload) true, 0x00⟩] := by decide +kernel

theorem test_witness_ConfigurationThenStatusRead :
    (waiting [⟨writeFrame bC0, 1⟩, ⟨b13 ++ bC0 ++ b2D ++ [false], 2⟩]).cfg.valid = true ∧ payload.length = 32 ∧
    (waiting [⟨writeFrame bC0, 1⟩, ⟨b13 ++ bC0 ++ b2D ++ [false], 2⟩]).rxQueue =
      [⟨encode Config.default (.gbwriteConfig 0x2D payload true), 1⟩,
       ⟨encode Config.default (.gbreadC0 0x2D false), 2⟩] := by decide +kernel

theorem test_witness_DataSendThenPeripheralRead :
    (waiting [⟨writeFrame bE0, 1⟩, ⟨b13 ++ bF0 ++ b2D ++ [true], 2⟩]).cfg.valid = true ∧ payload.length = 32 ∧
    (waiting [⟨writeFrame bE0, 1⟩, ⟨b13 ++ bF0 ++ b2D ++ [true], 2⟩]).rxQueue =
      [⟨encode Config.default (.gbwriteSend 0x2D payload true), 1⟩,
       ⟨encode Config.default (.gbreadF0 0x2D true), 2⟩] := by decide +kernel

/-- 385 bits fill one bit of status-slot byte 0, take seven of the draw and leave 1 to 32; 400 bits reach
bytes 0 and 1 and leave 2 to 32; 648 bits reach the whole slot. -/
theorem test_witness_LongFrameDestroysTheStatusSlot :
    (waiting [⟨List.replicate 385 true, 0x55⟩, ⟨b13 ++ bC0 ++ b00 ++ [true], 0⟩]).cfg.valid = true ∧
    (waiting [⟨List.replicate 385 true, 0x55⟩, ⟨b13 ++ bC0 ++ b00 ++ [true], 0⟩]).phase = .wait ∧
    (waiting [⟨List.replicate 385 true, 0x55⟩, ⟨b13 ++ bC0 ++ b00 ++ [true], 0⟩]).rxQueue =
      [⟨List.replicate 385 true, 0x55⟩, ⟨encode Config.default (.gbreadC0 0x00 true), 0⟩] ∧
    (List.replicate 385 true).length = 385 ∧ 384 < 385 ∧ 385 ≤ Config.default.maxRxBits ∧
    8 * 0x30 ≤ 384 ∧ 384 < 385 ∧ 0x30 ≤ 385 / 8 ∧ 385 / 8 < 0x30 + 33 ∧ 385 % 8 ≠ 0 ∧ 6 < 8 - 385 % 8 ∧
    385 ≤ 8 * (0x30 + 1) ∧ 8 * (0x30 + 1) + 8 ≤ 400 ∧ 400 ≤ 8 * (0x30 + 2) ∧ 8 * (0x30 + 32) + 8 ≤ 648 := by
  decide +kernel

/-- 649 bits fill one bit of peripheral-slot byte 0, take seven of the draw and leave 1 to 32; 664 bits
reach bytes 0 and 1 and leave 2 to 32; 912 bits reach the whole slot. -/
theorem test_witness_LongFrameDestroysThePeripheralSlot :
    (waiting [⟨List.replicate 649 true, 0x55⟩, ⟨b13 ++ bF0 ++ b00 ++ [true], 0⟩]).cfg.valid = true ∧
    (waiting [⟨List.replicate 649 true, 0x55⟩, ⟨b13 ++ bF0 ++ b00 ++ [true], 0⟩]).phase = .wait ∧
    (waiting [⟨List.replicate 649 true, 0x55⟩, ⟨b13 ++ bF0 ++ b00 ++ [true], 0⟩]).rxQueue =
      [⟨List.replicate 649 true, 0x55⟩, ⟨encode Config.default (.gbreadF0 0x00 true), 0⟩] ∧
    (List.replicate 649 true).length = 649 ∧ 648 < 649 ∧ 649 ≤ Config.default.maxRxBits ∧
    8 * 0x51 ≤ 648 ∧ 648 < 649 ∧ 0x51 ≤ 649 / 8 ∧ 649 / 8 < 0x51 + 33 ∧ 649 % 8 ≠ 0 ∧ 6 < 8 - 649 % 8 ∧
    649 ≤ 8 * (0x51 + 1) ∧ 8 * (0x51 + 1) + 8 ≤ 664 ∧ 664 ≤ 8 * (0x51 + 2) ∧
    8 * (0x51 + 32) + 8 ≤ 912 ∧ 912 ≤ Config.default.maxRxBits := by
  decide +kernel

/-- 9 bits, whose last byte takes the draw, and 8 bits, which take none. -/
theorem test_witness_DrawReachesNoReplyOfItsTransaction :
    (waiting []).cfg.valid = true ∧ (waiting []).phase = .wait ∧
    (bFF ++ [true]).length ≤ (waiting []).cfg.maxRxBits ∧ bFF.length % 8 = 0 ∧
    2 ≠ (bFF ++ [true]).length / 8 := by decide +kernel

/-- A run over a RESET, with a frame of 384 bits still to come, and the same frames with other draws. -/
theorem test_witness_DrawsOfShorterFramesReachNoReply :
    ([⟨bFF ++ [true], 0x00⟩, ⟨List.replicate 384 true, 0x00⟩] : List Delivery).map (·.bits) =
      (waiting [⟨bFF ++ [true], 0x7F⟩, ⟨List.replicate 384 true, 0xFF⟩]).rxQueue.map (·.bits) ∧
    (∀ d ∈ (waiting [⟨bFF ++ [true], 0x7F⟩, ⟨List.replicate 384 true, 0xFF⟩]).rxQueue,
      d.bits.length ≤ 384) ∧
    (after (runSteps 2 (waiting [⟨bFF ++ [true], 0x7F⟩, ⟨List.replicate 384 true, 0xFF⟩]))).map
      (·.phase) = some .wait := by decide +kernel

/-- Two frames of each length 9, 25 and 281 that agree outside byte 2 and the last bit, and differ there. -/
theorem test_witness_UninspectedBitsReachNoReply :
    (waiting []).cfg.valid = true ∧ (waiting []).phase = .wait ∧
    agreeWhereInspected (bFF ++ [false]) (bFF ++ [true]) 9 = true ∧
    agreeWhereInspected (b13 ++ bC0 ++ b00 ++ [true]) (b13 ++ bC0 ++ bFF ++ [false]) 25 = true ∧
    agreeWhereInspected (b14 ++ bE0 ++ b2D ++ bPayload ++ [true])
      (b14 ++ bE0 ++ bF0 ++ bPayload ++ [false]) 281 = true := by decide +kernel

/-- A buffer that differs at 0x24, 0x2F, 0x72 and 0x7F. -/
theorem test_witness_UnusedBytesAreNeverRead :
    (dispatching 25 []).cfg.valid = true ∧ (dispatching 25 []).phase = .dispatch ∧
    ∀ a, ¬(0x24 ≤ a ∧ a ≤ 0x2F) → ¬(0x72 ≤ a ∧ a ≤ 0x7F) →
      Memory.read [(0x24, 1), (0x2F, 1), (0x72, 1), (0x7F, 1)] a = (dispatching 25 []).fb.read a := by
  refine ⟨by decide +kernel, rfl, fun a h₁ h₂ => ?_⟩
  show Memory.read _ a = Memory.read [] a
  simp only [Memory.read]
  rw [if_neg (by omega), if_neg (by omega), if_neg (by omega), if_neg (by omega)]

/-- The seed and entry 0 of (b), a window of 31 bytes and a table of 256 distinct entries with two bytes. -/
theorem test_witness_CrcLawsForEveryTable :
    Config.default.crcInit = 0x00 ∧ crcLookup Config.default 0x00 = 0x00 ∧
    (List.replicate 31 (0x11 : Byte)).length = 31 ∧ otherConfig.crcTable.length = 256 ∧
    otherConfig.crcTable.Nodup ∧ (0x00 : Byte) ≠ 0xFF := by
  refine ⟨by decide +kernel, by decide +kernel, by decide, by decide +kernel, ?_, by decide⟩
  refine List.Nodup.map_on (fun x hx y hy h => ?_) List.nodup_range
  simp only [List.mem_range] at hx hy
  have := congrArg BitVec.toNat h
  simp only [BitVec.toNat_ofNat] at this
  omega

theorem test_witness_DefaultCrcIsLinear :
    (List.replicate 32 (0xAA : Byte)).length = (List.replicate 32 (0x55 : Byte)).length := by decide +kernel

end Sys2Proof.Tests
end

/-! PROOFS. Which configurations `step` refuses, and by which name (00_scope.md R9 to R11): the checks as
propositions, then the refusal they lead to. -/

namespace Sys2Proof

/-- 00_scope.md R10 (a) and (b) fail exactly at one of the five collisions. -/
theorem Config.opcodesDistinct_eq_false_iff {c : Config} :
    c.opcodesDistinct = false ↔
      c.opGbRead = c.opGbWrite ∨ c.opGbRead = c.opId ∨ c.opGbRead = c.opReset ∨
        c.opGbWrite = c.opId ∨ c.opGbWrite = c.opReset := by
  simp only [Config.opcodesDistinct, Bool.and_eq_false_iff, bne_eq_false_iff_eq, or_assoc]

/-- The size checks fail exactly outside the sizes of 00_scope.md R9 and R11. -/
theorem Config.sizesOk_eq_false_iff {c : Config} :
    c.sizesOk = false ↔ c.crcTable.length ≠ 256 ∨ c.maxRxBits < 281 ∨ 1024 < c.maxRxBits := by
  simp only [Config.sizesOk, Bool.and_eq_false_iff, beq_eq_false_iff_ne, decide_eq_false_iff_not,
    Nat.not_le, or_assoc]

theorem Config.valid_iff {c : Config} :
    c.valid = true ↔ c.opcodesDistinct = true ∧ c.sizesOk = true := by
  simp only [Config.valid, Bool.and_eq_true]

/-- Giving RESET the opcode of ID adds no collision: GBREAD and GBWRITE already differ from ID's
(00_scope.md R10 (c)). -/
theorem Config.opcodesDistinct_resetAsId {c : Config} (h : c.opcodesDistinct = true) :
    ({ c with opReset := c.opId } : Config).opcodesDistinct = true := by
  simp only [Config.opcodesDistinct, Bool.and_eq_true] at h ⊢
  obtain ⟨⟨⟨⟨hReadWrite, hReadId⟩, -⟩, hWriteId⟩, -⟩ := h
  exact ⟨⟨⟨⟨hReadWrite, hReadId⟩, hReadId⟩, hWriteId⟩, hWriteId⟩

namespace Machine

theorem configRefusal_of_opcodeCollision {c : Config} (h : c.opcodesDistinct = false) :
    configRefusal c = some .opcodeCollision := if_pos h

/-- The sizes are looked at only once the opcodes have passed. -/
theorem configRefusal_of_badSize {c : Config} (hOps : c.opcodesDistinct = true)
    (hSizes : c.sizesOk = false) : configRefusal c = some .badParameterSize := by
  rw [configRefusal, if_neg (by simp [hOps]), if_pos hSizes]

/-- A refused configuration is refused in every phase, before anything else of the state is read. -/
theorem step_of_configRefusal {s : State} {r : Refusal} (h : configRefusal s.cfg = some r) :
    step s = .refused r := by
  rw [step, h]

/-- Settles O12: each collision fails the opcode check, the first one `step` makes, and the check does
not compare ID with RESET. -/
theorem opcodeCollisionsRefused : Obligations.OpcodeCollisionsRefused := by
  refine ⟨fun s hCollision => ?_, fun c hValid => ?_⟩
  · have hOps := Config.opcodesDistinct_eq_false_iff.mpr hCollision
    exact step_of_configRefusal (configRefusal_of_opcodeCollision hOps)
  · obtain ⟨hOps, hSizes⟩ := Config.valid_iff.mp hValid
    exact Config.valid_iff.mpr ⟨Config.opcodesDistinct_resetAsId hOps, hSizes⟩

/-- Settles O13: with the opcodes distinct, a wrong size reaches the size check and fails it. -/
theorem badParameterSizesRefused : Obligations.BadParameterSizesRefused := by
  intro s hOps hSize
  have hSizes := Config.sizesOk_eq_false_iff.mpr hSize
  exact step_of_configRefusal (configRefusal_of_badSize hOps hSizes)

end Machine

end Sys2Proof

/-! PROOFS. The control loop, the holder of the Frame Buffer, and the invariant (10_state.md): first what
a command leaves alone and how it keeps the buffer's form and the reply formats, then the invariant under
each kind of step, then power-on. Each statement about a step is a case analysis of `step_cases`. -/

namespace Sys2Proof

/-- The limit of 00_scope.md R9 keeps every accepted Receive inside the buffer's 128 bytes. -/
theorem Config.maxRxBits_le_of_valid {c : Config} (h : c.valid = true) :
    c.maxRxBits ≤ 8 * Machine.bufferBytes := by
  obtain ⟨-, hSizes⟩ := Config.valid_iff.mp h
  simp only [Config.sizesOk, Bool.and_eq_true, decide_eq_true_eq] at hSizes
  obtain ⟨-, hMax⟩ := hSizes
  exact hMax

/-- The default table has the 256 entries of 10_state.md R27: sixteen rows of sixteen. -/
theorem defaultCrcTable_length : defaultCrcTable.length = 256 := by
  simp only [defaultCrcTable, List.length_append, List.length_cons, List.length_nil]

theorem Config.default_valid : Config.default.valid = true := by
  refine Config.valid_iff.mpr ⟨by decide, ?_⟩
  simp [Config.sizesOk, Config.default, defaultCrcTable_length]

namespace Machine

/-! ### The holder of the buffer -/

theorem State.owner_eq_dispatcher_iff {s : State} : s.owner = .dispatcher ↔ s.phase = .dispatch := by
  unfold State.owner
  cases s.phase <;> simp

theorem State.owner_eq_transport_iff {s : State} : s.owner = .transport ↔ s.phase ≠ .dispatch := by
  unfold State.owner
  cases s.phase <;> simp

/-! ### What a command leaves alone, and what it keeps -/

/-- A command writes only the buffer and the log, and ends in WAIT. -/
theorem exec_frame {i : Instr} {s t : State} (h : exec i s = .next t) :
    t.cfg = s.cfg ∧ t.phase = .wait ∧ t.rxN = s.rxN ∧ t.rxQueue = s.rxQueue := by
  obtain ⟨fb, log, hExec, -⟩ := exec_cases i s
  cases hExec.symm.trans h
  exact ⟨rfl, rfl, rfl, rfl⟩

/-- A command keeps the buffer's canonical form: its single writes lie inside the 128 bytes. -/
theorem exec_wf {i : Instr} {s t : State} (hWf : s.fb.wf = true) (h : exec i s = .next t) :
    t.fb.wf = true := by
  obtain ⟨fb, log, hExec, hEffect⟩ := exec_cases i s
  cases hExec.symm.trans h
  have hReply := checksumReply_wf hWf
  rcases hEffect with ⟨-, rfl⟩ | ⟨-, rfl⟩ | ⟨-, -, rfl⟩ | ⟨-, rfl | rfl | rfl | rfl⟩
  · exact hWf
  · exact hWf
  · exact hWf
  · exact hReply
  · exact Memory.wf_clear hReply
  · exact stageByte_wf hReply (by decide) (by decide) _ _
  · exact stageByte_wf hReply (by decide) (by decide) _ _

/-- The reply formats of 30_encoding.md R67, by their lengths. -/
theorem Reply.formatOk_iff {r : Reply} :
    r.formatOk = true ↔ r.length = 1 ∨ r.length = 3 ∨ r.length = 33 := by
  simp only [Reply.formatOk, Bool.or_eq_true, beq_iff_eq, or_assoc]

/-- A command sends nothing, or one reply of a format of 30_encoding.md R67. -/
theorem exec_txLog {i : Instr} {s t : State} (h : exec i s = .next t) :
    t.txLog = s.txLog ∨ ∃ r : Reply, r.formatOk = true ∧ t.txLog = s.txLog ++ [r] := by
  obtain ⟨fb, log, hExec, hEffect⟩ := exec_cases i s
  cases hExec.symm.trans h
  rcases hEffect with ⟨rfl, -⟩ | ⟨rfl, -⟩ | ⟨slot, rfl, -⟩ | ⟨rfl, -⟩
  · exact .inl rfl
  · exact .inr ⟨identRecord, rfl, rfl⟩
  · exact .inr ⟨_, Reply.formatOk_iff.mpr (.inr (.inr (Memory.readBytes_length _ _ _))), rfl⟩
  · exact .inr ⟨_, rfl, rfl⟩

/-! ### The invariant under each kind of step -/

/-- Outside a dispatch the invariant asks nothing of the received length. -/
theorem State.inv_of_phase_ne_dispatch {s : State} (hPhase : s.phase ≠ .dispatch)
    (hValid : s.cfg.valid = true) (hWf : s.fb.wf = true)
    (hLog : ∀ r ∈ s.txLog, Reply.formatOk r = true) : s.Inv :=
  ⟨hValid, hWf, fun hDispatch => absurd hDispatch hPhase, hLog⟩

/-- Hardware initialisation keeps the invariant: it moves the phase alone. -/
theorem enterWait_inv {s : State} (h : s.Inv) : ({ s with phase := .wait } : State).Inv := by
  obtain ⟨hValid, hWf, -, hLog⟩ := h
  exact State.inv_of_phase_ne_dispatch (by simp) hValid hWf hLog

/-- The invariant does not look at the Receives to come. -/
theorem State.inv_rxQueue_iff {s : State} (q : List Delivery) :
    ({ s with rxQueue := q } : State).Inv ↔ s.Inv := Iff.rfl

/-- A Receive within the limit keeps the invariant: the frame fits the buffer (20_memory.md R49). -/
theorem receive_inv {s : State} (h : s.Inv) {d : Delivery}
    (hLimit : d.bits.length ≤ s.cfg.maxRxBits) : (receive s d).Inv := by
  obtain ⟨hValid, hWf, -, hLog⟩ := h
  have hFits := hLimit.trans (Config.maxRxBits_le_of_valid hValid)
  exact ⟨hValid, receive_wf hWf hFits, fun _ => hLimit, hLog⟩

/-- Every command keeps the invariant. -/
theorem exec_inv {s t : State} (h : s.Inv) {i : Instr} (hExec : exec i s = .next t) : t.Inv := by
  obtain ⟨hValid, hWf, -, hLog⟩ := h
  obtain ⟨hCfg, hWait, -, -⟩ := exec_frame hExec
  refine State.inv_of_phase_ne_dispatch (by simp [hWait]) (hCfg ▸ hValid) (exec_wf hWf hExec) ?_
  rcases exec_txLog hExec with hSame | ⟨r, hFormat, hReply⟩
  · rwa [hSame]
  · rw [hReply, List.forall_mem_append, List.forall_mem_singleton]
    exact ⟨hLog, hFormat⟩

/-- Settles O5: initialisation and the idle wait leave all that the invariant speaks of, a Receive is
within the limit that `step` checks, and a dispatch runs a command. -/
theorem invariantKeptByEveryStep : Obligations.InvariantKeptByEveryStep := by
  intro s t hInv hStep
  obtain ⟨-, ⟨-, rfl⟩ | ⟨-, -, rfl⟩ | ⟨d, rest, -, -, hLimit, rfl⟩ | ⟨-, hExec⟩⟩ := step_cases hStep
  · exact enterWait_inv hInv
  · exact hInv
  · exact receive_inv ((State.inv_rxQueue_iff rest).mpr hInv) hLimit
  · exact exec_inv hInv hExec

/-- Settles O4: `FB_POWERON` is 128 writes inside the buffer, from the empty listing. -/
theorem invariantAtPowerOn : Obligations.InvariantAtPowerOn := by
  intro c fbPowerOn hValid hLength
  have hWf : (State.powerOn c fbPowerOn).fb.wf = true :=
    Memory.wf_writeBytes Memory.wf_nil fbPowerOn (by rw [hLength]; decide)
  exact State.inv_of_phase_ne_dispatch (by simp) hValid hWf (by simp)

/-! ### The control loop and the buffer's holder, step by step -/

/-- Settles O9: the four cases of a step are the four moves of the loop. -/
theorem phaseAdvancesOnlyAlongTheLoop : Obligations.PhaseAdvancesOnlyAlongTheLoop := by
  intro s t hStep
  obtain ⟨-, hInit | hIdle | ⟨d, rest, hPhase, hQueue, -, rfl⟩ | ⟨hPhase, hExec⟩⟩ := step_cases hStep
  · exact .inl hInit
  · exact .inr (.inl hIdle)
  · exact .inr (.inr (.inl ⟨hPhase, rfl, d, hQueue, rfl⟩))
  · obtain ⟨-, hWait, -, hQueue⟩ := exec_frame hExec
    exact .inr (.inr (.inr ⟨hPhase, hWait, hQueue⟩))

/-- Settles O10: initialisation and the idle wait leave the buffer, so a step that changes it is a Receive
or a dispatch, and each of the two moves the phase across the hand-over. -/
theorem onlyTheOwnerChangesTheBuffer : Obligations.OnlyTheOwnerChangesTheBuffer := by
  intro s t hStep hChanged
  obtain ⟨-, ⟨-, rfl⟩ | ⟨-, -, rfl⟩ | ⟨d, rest, hPhase, hQueue, -, rfl⟩ | ⟨hPhase, hExec⟩⟩ :=
    step_cases hStep
  · exact absurd rfl hChanged
  · exact absurd rfl hChanged
  · exact .inl ⟨State.owner_eq_transport_iff.mpr (by simp [hPhase]),
      State.owner_eq_dispatcher_iff.mpr (receive_phase _ d), d, hQueue, receive_fb _ d⟩
  · obtain ⟨-, hWait, -, -⟩ := exec_frame hExec
    exact .inr ⟨State.owner_eq_dispatcher_iff.mpr hPhase,
      State.owner_eq_transport_iff.mpr (by simp [hWait])⟩

/-! ### Power-on and reset -/

/-- The parameters are constants of the block (10_state.md R32). -/
theorem step_cfg {s t : State} (h : step s = .next t) : t.cfg = s.cfg := by
  obtain ⟨-, ⟨-, rfl⟩ | ⟨-, -, rfl⟩ | ⟨d, rest, -, -, -, rfl⟩ | ⟨-, hExec⟩⟩ := step_cases h
  · rfl
  · rfl
  · rfl
  · obtain ⟨hCfg, -, -, -⟩ := exec_frame hExec
    exact hCfg

/-- At power-on the buffer reads `FB_POWERON`, and 0x00 where that ends. -/
theorem State.powerOn_read (c : Config) (fbPowerOn : List Byte) (a : Nat) :
    (State.powerOn c fbPowerOn).fb.read a = fbPowerOn.getD a 0 := by
  rw [State.powerOn_fb, Memory.read_writeBytes, if_pos (Nat.zero_le a)]
  rfl

/-- Settles O1: each field is `State.powerOn`'s own, the buffer by `State.powerOn_read`, and no step
touches the parameters. -/
theorem powerOnState : Obligations.PowerOnState := by
  refine ⟨fun c fbPowerOn _ => ?_, fun s t hStep => step_cfg hStep⟩
  exact ⟨rfl, rfl, fun a _ => State.powerOn_read c fbPowerOn a, rfl, rfl, rfl⟩

/-- Settles O2: writing 0x00 lists nothing, so 128 zero bytes leave the empty listing. -/
theorem resetIsPowerOnAtModelDefaults : Obligations.ResetIsPowerOnAtModelDefaults := by
  have hEmpty : Memory.writeBytes [] 0 (List.replicate 128 0x00) = [] := by
    rw [Memory.writeBytes_zeros, List.filter_nil]
  rw [Obligations.ResetIsPowerOnAtModelDefaults, State.powerOn, hEmpty]
  rfl

/-- Settles O3: the reset state is a power-on state of an accepted configuration. -/
theorem invariantAtReset : Obligations.InvariantAtReset := by
  rw [Obligations.InvariantAtReset, resetIsPowerOnAtModelDefaults]
  exact invariantAtPowerOn Config.default _ Config.default_valid List.length_replicate

end Machine

end Sys2Proof

/-! PROOFS. The Transport's Receive and the wire form of a reply (20_memory.md R49 to R51, R56): the step
of each phase as an equation, then what a Receive refuses and what it places where. -/

namespace Sys2Proof.Machine

/-! ### The step of each phase, where the configuration is accepted -/

theorem step_of_init {s : State} (hValid : s.cfg.valid = true) (hPhase : s.phase = .init) :
    step s = .next { s with phase := .wait } := by
  simp only [step, configRefusal_eq_none.mpr hValid, hPhase, hardwareInit]

theorem step_of_wait_nil {s : State} (hValid : s.cfg.valid = true) (hPhase : s.phase = .wait)
    (hQueue : s.rxQueue = []) : step s = .next s := by
  simp only [step, configRefusal_eq_none.mpr hValid, hPhase, transportStep, hQueue]

theorem step_of_wait_cons {s : State} {d : Delivery} {rest : List Delivery}
    (hValid : s.cfg.valid = true) (hPhase : s.phase = .wait) (hQueue : s.rxQueue = d :: rest) :
    step s = if d.bits.length ≤ s.cfg.maxRxBits then .next (receive { s with rxQueue := rest } d)
      else .refused .oversizedDelivery := by
  simp only [step, configRefusal_eq_none.mpr hValid, hPhase, transportStep, hQueue]

theorem step_of_dispatch {s : State} (hValid : s.cfg.valid = true) (hPhase : s.phase = .dispatch) :
    step s = exec (decode s.cfg s.frame) s := by
  simp only [step, configRefusal_eq_none.mpr hValid, hPhase]

/-- The Receive that 20_memory.md R49 enables. -/
theorem step_of_delivery {s : State} {d : Delivery} {rest : List Delivery}
    (hValid : s.cfg.valid = true) (hPhase : s.phase = .wait) (hQueue : s.rxQueue = d :: rest)
    (hLimit : d.bits.length ≤ s.cfg.maxRxBits) :
    step s = .next (receive { s with rxQueue := rest } d) := by
  rw [step_of_wait_cons hValid hPhase hQueue, if_pos hLimit]

/-- A received frame is dispatched as the command its bits decode to, whatever the draw. -/
theorem step_receive {s : State} (hValid : s.cfg.valid = true) (d : Delivery) :
    step (receive s d) = exec (decode s.cfg d.bits) (receive s d) := by
  rw [step_of_dispatch (by simpa using hValid) (receive_phase s d), receive_frame, receive_cfg]

/-- Settles O14: WAIT checks the limit before it receives. -/
theorem oversizedDeliveryRefused : Obligations.OversizedDeliveryRefused := by
  intro s d rest hValid hPhase hQueue hOver
  rw [step_of_wait_cons hValid hPhase hQueue, if_neg (by omega)]

/-! ### Where a Receive puts each bit -/

/-- Bit `i` from the top is bit `7 - i` from the bottom. -/
theorem byte_getLsbD_sub (b : Byte) {i : Nat} (hi : i < 8) : b.getLsbD (7 - i) = b.getMsbD i := by
  simp [BitVec.getMsbD, hi]

/-- Bit `k` of the frame, in the byte `k` falls in, at `k mod 8` from the top (20_memory.md R49). -/
theorem receive_read_frameBit (s : State) (d : Delivery) {k : Nat} (hk : k < d.bits.length) :
    ((receive s d).fb.read (k / 8)).getLsbD (7 - k % 8) = d.bits[k] := by
  have hFrame : k < (receive s d).frame.length := by simpa using hk
  rw [byte_getLsbD_sub _ (Nat.mod_lt k (by decide)), ← State.frame_getElem _ hFrame]
  simp

/-- The bits of a partly filled last byte below the frame are the draw's (20_memory.md R49). -/
theorem receive_read_draw (s : State) (d : Delivery) {i : Nat} (hPartly : d.bits.length % 8 ≠ 0)
    (hi : i < 8 - d.bits.length % 8) :
    ((receive s d).fb.read (d.bits.length / 8)).getLsbD i = d.fill.getLsbD i := by
  obtain ⟨j, rfl, hj⟩ : ∃ j, i = 7 - j ∧ d.bits.length % 8 ≤ j ∧ j < 8 := ⟨7 - i, by omega, by omega⟩
  have hReached : d.bits.length / 8 < bytesReached d.bits.length := by unfold bytesReached; omega
  rw [byte_getLsbD_sub _ hj.2, byte_getLsbD_sub _ hj.2, receive_read, if_pos hReached,
    receivedByte_getMsbD _ _ _ hj.2, List.getD_eq_default _ _ (by omega)]

/-- A Receive leaves every byte that the frame does not reach (20_memory.md R50). -/
theorem receive_read_beyond (s : State) (d : Delivery) {a : Nat} (ha : bytesReached d.bits.length ≤ a) :
    (receive s d).fb.read a = s.fb.read a := by
  rw [receive_read, if_neg (by omega)]

/-- A step that takes a Receive off the queue starts in WAIT: no other step touches the queue. -/
theorem phase_wait_of_rxQueue_ne {s t : State} (hStep : step s = .next t)
    (hTaken : t.rxQueue ≠ s.rxQueue) : s.phase = .wait := by
  rcases phaseAdvancesOnlyAlongTheLoop s t hStep with
    ⟨-, rfl⟩ | ⟨hPhase, -⟩ | ⟨hPhase, -⟩ | ⟨-, -, hQueue⟩
  · exact absurd rfl hTaken
  · exact hPhase
  · exact hPhase
  · exact absurd hQueue hTaken

/-- Settles O15: the step is `receive`, whose buffer the three lemmas above read bit by bit: the frame,
the draw, and the rest. -/
theorem receivePlacesTheFrame : Obligations.ReceivePlacesTheFrame := by
  refine ⟨fun s d rest hValid hPhase hQueue hLimit => ?_, fun s t => phase_wait_of_rxQueue_ne⟩
  refine ⟨_, step_of_delivery hValid hPhase hQueue hLimit, rfl, rfl, rfl, rfl, rfl, rfl,
    fun k hk => ?_, fun i hPartly hi => ?_, fun a ha => ?_⟩
  · exact receive_read_frameBit _ d hk
  · exact receive_read_draw _ d hPartly hi
  · exact receive_read_beyond _ d ha

/-! ### The wire form of a reply -/

/-- Settles O40: byte `j` of the wire form, read back as a frame byte, is byte `j` of the reply. -/
theorem repliesLeaveMostSignificantBitFirst : Obligations.RepliesLeaveMostSignificantBitFirst := by
  intro r
  have hLength : (Reply.wireBits r).length = 8 * r.length := bitsOfBytes_length r
  refine ⟨hLength, fun j i hj hi => ?_⟩
  have hByte : frameByte (Reply.wireBits r) j = r[j] := by
    simpa [Reply.wireBits] using frameByte_bitsOfBytes_append hj []
  rw [List.getD_eq_getElem _ _ (by omega), ← frameByte_getMsbD (by omega) hi, hByte]

end Sys2Proof.Machine

/-! PROOFS. Decoding the frame of a command gives the command back (30_encoding.md R61 to R66), so a
delivered command is the one that runs: the decoder's rows as equations by opcode, the notated frames'
bytes, then the round trip and the two steps of a delivery. -/

namespace Sys2Proof

/-- 00_scope.md R10 (a) and (b), as inequations. -/
theorem Config.opcodes_ne_of_valid {c : Config} (h : c.valid = true) :
    c.opGbRead ≠ c.opGbWrite ∧ c.opGbRead ≠ c.opId ∧ c.opGbRead ≠ c.opReset ∧
      c.opGbWrite ≠ c.opId ∧ c.opGbWrite ≠ c.opReset := by
  obtain ⟨hOps, -⟩ := Config.valid_iff.mp h
  simpa only [Config.opcodesDistinct, Bool.and_eq_true, bne_iff_ne, and_assoc] using hOps

/-! ### The rows of the decoder, by length and opcode -/

theorem decode_of_lt_nine {c : Config} {f : List Bool} (h : f.length < 9) : decode c f = .short f :=
  if_pos h

theorem decode_of_ident {c : Config} {f : List Bool} (h9 : 9 ≤ f.length)
    (hOp : frameByte f 0 = c.opId ∨ frameByte f 0 = c.opReset) :
    decode c f =
      if f.length = 9 then
        if frameByte f 0 = c.opId then .id (f.getD 8 false) else .reset (f.getD 8 false)
      else .idResetWrongLength f := by
  rw [decode, if_neg (by omega), if_pos hOp]

theorem decode_of_gbread {c : Config} {f : List Bool} (hValid : c.valid = true) (h9 : 9 ≤ f.length)
    (hOp : frameByte f 0 = c.opGbRead) : decode c f = decodeGbRead f := by
  obtain ⟨-, hId, hReset, -, -⟩ := Config.opcodes_ne_of_valid hValid
  rw [decode, if_neg (by omega), hOp, if_neg (not_or.mpr ⟨hId, hReset⟩), if_pos rfl]

theorem decode_of_gbwrite {c : Config} {f : List Bool} (hValid : c.valid = true) (h9 : 9 ≤ f.length)
    (hOp : frameByte f 0 = c.opGbWrite) : decode c f = decodeGbWrite f := by
  obtain ⟨hRead, -, -, hId, hReset⟩ := Config.opcodes_ne_of_valid hValid
  rw [decode, if_neg (by omega), hOp, if_neg (not_or.mpr ⟨hId, hReset⟩), if_neg hRead.symm, if_pos rfl]

theorem decode_of_unrecognised {c : Config} {f : List Bool} (h9 : 9 ≤ f.length)
    (hId : frameByte f 0 ≠ c.opId) (hReset : frameByte f 0 ≠ c.opReset)
    (hRead : frameByte f 0 ≠ c.opGbRead) (hWrite : frameByte f 0 ≠ c.opGbWrite) :
    decode c f = .unrecognised f := by
  rw [decode, if_neg (by omega), if_neg (not_or.mpr ⟨hId, hReset⟩), if_neg hRead, if_neg hWrite]

/-! ### The notated frames (30_encoding.md R70) -/

theorem frameByte_encodeFrame {bytes : List Byte} {j : Nat} (h : j < bytes.length) (t : Bool) :
    frameByte (encodeFrame bytes t) j = bytes[j] :=
  frameByte_bitsOfBytes_append h [t]

/-- The trailing bit stands after the bytes' bits. -/
theorem encodeFrame_getD_trailing {bytes : List Byte} {n : Nat} (hn : n = 8 * bytes.length) (t : Bool) :
    (encodeFrame bytes t).getD n false = t := by
  subst hn
  rw [encodeFrame, List.getD_append_right _ _ _ _ (by simp), bitsOfBytes_length, Nat.sub_self]
  rfl

/-- The payload of a `GBWRITE` frame is the 32 bytes it was written with. -/
theorem framePayload_gbwriteFrame {c : Config} {d : List Byte} (hd : d.length = 32) (s b : Byte)
    (t : Bool) : framePayload (gbwriteFrame c s b d t) = d := by
  refine List.ext_getElem (by simp [framePayload, hd]) fun i _ hi => ?_
  have hByte : 3 + i < (c.opGbWrite :: s :: b :: d).length := by
    simp only [List.length_cons]; omega
  simp only [framePayload, gbwriteFrame, List.getElem_map, List.getElem_range,
    frameByte_encodeFrame hByte]
  simp only [Nat.add_comm 3 i, List.getElem_cons_succ]

theorem decode_idFrame (c : Config) (t : Bool) : decode c (idFrame c t) = .id t := by
  have hOp : frameByte (idFrame c t) 0 = c.opId := frameByte_encodeFrame (by simp) t
  have hTrailing : (idFrame c t).getD 8 false = t := encodeFrame_getD_trailing (by simp) t
  rw [decode_of_ident (by simp) (.inl hOp), if_pos (idFrame_length c t), if_pos hOp, hTrailing]

/-- A `RESET` frame is row 3 where its opcode is not ID's, which row 2 would take (00_scope.md R10 (c)). -/
theorem decode_resetFrame {c : Config} (hNe : c.opReset ≠ c.opId) (t : Bool) :
    decode c (resetFrame c t) = .reset t := by
  have hOp : frameByte (resetFrame c t) 0 = c.opReset := frameByte_encodeFrame (by simp) t
  have hTrailing : (resetFrame c t).getD 8 false = t := encodeFrame_getD_trailing (by simp) t
  rw [decode_of_ident (by simp) (.inr hOp), if_pos (resetFrame_length c t), hOp, if_neg hNe, hTrailing]

theorem decode_gbreadFrame {c : Config} (hValid : c.valid = true) (s b : Byte) (t : Bool) :
    decode c (gbreadFrame c s b t) =
      if s = 0xC0 then .gbreadC0 b t else if s = 0xF0 then .gbreadF0 b t else .gbreadOther s b t := by
  have hOp : frameByte (gbreadFrame c s b t) 0 = c.opGbRead := frameByte_encodeFrame (by simp) t
  have hSub : frameByte (gbreadFrame c s b t) 1 = s := frameByte_encodeFrame (by simp) t
  have hByte2 : frameByte (gbreadFrame c s b t) 2 = b := frameByte_encodeFrame (by simp) t
  have hTrailing : (gbreadFrame c s b t).getD 24 false = t := encodeFrame_getD_trailing (by simp) t
  rw [decode_of_gbread hValid (by simp) hOp, decodeGbRead, if_pos (gbreadFrame_length c s b t), hSub,
    hByte2, hTrailing]

theorem decode_gbwriteFrame {c : Config} (hValid : c.valid = true) (s b : Byte) {d : List Byte}
    (hd : d.length = 32) (t : Bool) :
    decode c (gbwriteFrame c s b d t) =
      if s = 0x80 then .gbwriteInit b d t else if s = 0xC0 then .gbwriteConfig b d t
      else if s = 0xE0 then .gbwriteSend b d t else .gbwriteOther s b d t := by
  have hOp : frameByte (gbwriteFrame c s b d t) 0 = c.opGbWrite := frameByte_encodeFrame (by simp) t
  have hSub : frameByte (gbwriteFrame c s b d t) 1 = s := frameByte_encodeFrame (by simp) t
  have hByte2 : frameByte (gbwriteFrame c s b d t) 2 = b := frameByte_encodeFrame (by simp) t
  have hTrailing : (gbwriteFrame c s b d t).getD 280 false = t :=
    encodeFrame_getD_trailing (by simp [hd]) t
  have hLength : (gbwriteFrame c s b d t).length = 281 := by rw [gbwriteFrame_length, hd]
  rw [decode_of_gbwrite hValid (by omega) hOp, decodeGbWrite, if_pos hLength, hSub, hByte2,
    framePayload_gbwriteFrame hd, hTrailing]

/-! ### The round trip, and the delivery of a command -/

/-- The decoder gives back the command a frame was encoded from: rows with a format by the notated
frames, rows that carry their bits by the row's own condition. -/
theorem decode_encode {c : Config} (hValid : c.valid = true) {i : Instr} (hWf : i.wellFormed c = true) :
    decode c (encode c i) = i := by
  cases i with
  | short bits => exact decode_of_lt_nine (of_decide_eq_true hWf)
  | id t => exact decode_idFrame c t
  | reset t => exact decode_resetFrame (bne_iff_ne.mp hWf) t
  | idResetWrongLength bits =>
    simp only [Instr.wellFormed, Bool.and_eq_true, Bool.or_eq_true, decide_eq_true_eq, beq_iff_eq] at hWf
    obtain ⟨⟨hLong, -⟩, hOp⟩ := hWf
    rw [encode, decode_of_ident (by omega) hOp, if_neg (by omega)]
  | gbreadC0 b2 t => rw [encode, decode_gbreadFrame hValid, if_pos rfl]
  | gbreadF0 b2 t => rw [encode, decode_gbreadFrame hValid, if_neg (by decide), if_pos rfl]
  | gbreadOther sub b2 t =>
    simp only [Instr.wellFormed, Bool.and_eq_true, bne_iff_ne] at hWf
    obtain ⟨hC0, hF0⟩ := hWf
    rw [encode, decode_gbreadFrame hValid, if_neg hC0, if_neg hF0]
  | gbreadWrongLength bits =>
    simp only [Instr.wellFormed, Bool.and_eq_true, decide_eq_true_eq, beq_iff_eq, bne_iff_ne] at hWf
    obtain ⟨⟨⟨h9, hLength⟩, -⟩, hOp⟩ := hWf
    rw [encode, decode_of_gbread hValid h9 hOp, decodeGbRead, if_neg hLength]
  | gbwriteInit b2 d t =>
    rw [encode, decode_gbwriteFrame hValid _ _ (beq_iff_eq.mp hWf), if_pos rfl]
  | gbwriteConfig b2 d t =>
    rw [encode, decode_gbwriteFrame hValid _ _ (beq_iff_eq.mp hWf), if_neg (by decide), if_pos rfl]
  | gbwriteSend b2 d t =>
    rw [encode, decode_gbwriteFrame hValid _ _ (beq_iff_eq.mp hWf), if_neg (by decide),
      if_neg (by decide), if_pos rfl]
  | gbwriteOther sub b2 d t =>
    simp only [Instr.wellFormed, Bool.and_eq_true, bne_iff_ne, beq_iff_eq] at hWf
    obtain ⟨⟨⟨h80, hC0⟩, hE0⟩, hd⟩ := hWf
    rw [encode, decode_gbwriteFrame hValid _ _ hd, if_neg h80, if_neg hC0, if_neg hE0]
  | gbwriteWrongLength bits =>
    simp only [Instr.wellFormed, Bool.and_eq_true, decide_eq_true_eq, beq_iff_eq, bne_iff_ne] at hWf
    obtain ⟨⟨⟨h9, hLength⟩, -⟩, hOp⟩ := hWf
    rw [encode, decode_of_gbwrite hValid h9 hOp, decodeGbWrite, if_neg hLength]
  | unrecognised bits =>
    simp only [Instr.wellFormed, Bool.and_eq_true, decide_eq_true_eq, bne_iff_ne] at hWf
    obtain ⟨⟨⟨⟨⟨h9, -⟩, hId⟩, hReset⟩, hRead⟩, hWrite⟩ := hWf
    exact decode_of_unrecognised h9 hId hReset hRead hWrite

/-- The per-command length lemmas of Laws/PerInstr.lean, over all commands. -/
theorem encode_length {c : Config} (hValid : c.valid = true) {i : Instr} (hWf : i.wellFormed c = true) :
    (encode c i).length = i.frameLength ∧ (encode c i).length ≤ c.maxRxBits := by
  have hAll : Laws.EncodedLength.Statement i := by
    cases i with
    | short => exact Laws.EncodedLength.short _
    | id => exact Laws.EncodedLength.id _
    | reset => exact Laws.EncodedLength.reset _
    | idResetWrongLength => exact Laws.EncodedLength.idResetWrongLength _
    | gbreadC0 => exact Laws.EncodedLength.gbreadC0 _ _
    | gbreadF0 => exact Laws.EncodedLength.gbreadF0 _ _
    | gbreadOther => exact Laws.EncodedLength.gbreadOther _ _ _
    | gbreadWrongLength => exact Laws.EncodedLength.gbreadWrongLength _
    | gbwriteInit => exact Laws.EncodedLength.gbwriteInit _ _ _
    | gbwriteConfig => exact Laws.EncodedLength.gbwriteConfig _ _ _
    | gbwriteSend => exact Laws.EncodedLength.gbwriteSend _ _ _
    | gbwriteOther => exact Laws.EncodedLength.gbwriteOther _ _ _ _
    | gbwriteWrongLength => exact Laws.EncodedLength.gbwriteWrongLength _
    | unrecognised => exact Laws.EncodedLength.unrecognised _
  exact hAll c hValid hWf

namespace Machine

/-- Settles O21: the frame fits a Receive (`encode_length`), the Dispatcher finds it in the buffer as it
was delivered (`step_receive`), and it decodes to the command (`decode_encode`). -/
theorem deliveredCommandIsTheOneThatRuns : Obligations.DeliveredCommandIsTheOneThatRuns := by
  intro s i fill rest hValid hPhase hWf hQueue
  obtain ⟨hLength, hLimit⟩ := encode_length hValid hWf
  refine ⟨_, step_of_delivery hValid hPhase hQueue hLimit, rfl, hLength, rfl, rfl, rfl, ?_⟩
  have hStep := step_receive (s := { s with rxQueue := rest }) hValid ⟨encode s.cfg i, fill⟩
  rwa [decode_encode hValid hWf] at hStep

end Machine

end Sys2Proof

/-! PROOFS. What a dispatch cannot depend on (20_memory.md R47, R49; 41_dispatch.md R99): which bytes a
command reads; that two dispatches of one frame, from states that agree on the slots, log the same replies;
and from it what the unused bytes and the draws cannot reach. -/

namespace Sys2Proof.Machine

/-- The `n` bytes at `a` and up. -/
def InWindow (a n b : Nat) : Prop := a ≤ b ∧ b < a + n

/-- The bytes a command's meaning reads: a GBREAD its slot, a GBWRITE the send window and the payload of
the slot it stages. `exec_agreeOn` proves that no other byte matters. -/
def commandReads : Instr → Nat → Prop
  | .gbreadC0 _ _, b => InWindow statusSlot slotBytes b
  | .gbreadF0 _ _, b => InWindow peripheralSlot slotBytes b
  | .gbwriteInit _ _ _, b => InWindow sendWindow 32 b
  | .gbwriteConfig _ _ _, b => InWindow sendWindow 32 b ∨ InWindow statusSlot 32 b
  | .gbwriteSend _ _ _, b => InWindow sendWindow 32 b ∨ InWindow peripheralSlot 32 b
  | .gbwriteOther _ _ _ _, b => InWindow sendWindow 32 b
  | _, _ => False

/-! ### Two states that agree on a set of bytes -/

/-- Two states with the same parameters and log, whose buffers agree on the bytes `P`. -/
structure State.AgreeOn (P : Nat → Prop) (s s' : State) : Prop where
  cfg : s'.cfg = s.cfg
  txLog : s'.txLog = s.txLog
  fb : ∀ b, P b → s'.fb.read b = s.fb.read b

namespace State.AgreeOn

variable {P Q : Nat → Prop} {s s' : State}

theorem mono (h : s.AgreeOn P s') (hSub : ∀ b, Q b → P b) : s.AgreeOn Q s' :=
  ⟨h.cfg, h.txLog, fun b hb => h.fb b (hSub b hb)⟩

theorem readBytes (h : s.AgreeOn P s') {a n : Nat} (hWindow : ∀ b, InWindow a n b → P b) :
    s'.fb.readBytes a n = s.fb.readBytes a n :=
  Memory.readBytes_congr fun i hi => h.fb (a + i) (hWindow _ ⟨by omega, by omega⟩)

theorem crc8 (h : s.AgreeOn P s') {a : Nat} (hWindow : ∀ b, InWindow a 32 b → P b) :
    s'.crc8 a = s.crc8 a := by
  rw [State.crc8, State.crc8, h.cfg, h.readBytes hWindow]

theorem writeByte (h : s.AgreeOn P s') (a : Nat) (v : Byte) :
    (s.writeByte a v).AgreeOn P (s'.writeByte a v) where
  cfg := h.cfg
  txLog := h.txLog
  fb b hb := by simp only [State.writeByte_fb, Memory.read_write, h.fb b hb]

theorem reply (h : s.AgreeOn P s') (r : Reply) : (s.reply r).AgreeOn P (s'.reply r) where
  cfg := h.cfg
  txLog := by simp only [State.reply_txLog, h.txLog]
  fb := h.fb

theorem clearBuffer (h : s.AgreeOn P s') : s.clearBuffer.AgreeOn P s'.clearBuffer where
  cfg := h.cfg
  txLog := h.txLog
  fb b hb := by simp only [State.clearBuffer_fb, Memory.read_clear, h.fb b hb]

/-- The end of a dispatch moves the phase alone, of which the agreement says nothing. -/
theorem endTransaction (h : s.AgreeOn P s') :
    ∃ t t', endTransaction s = .next t ∧ endTransaction s' = .next t' ∧ t.AgreeOn P t' :=
  ⟨_, _, rfl, rfl, h.cfg, h.txLog, h.fb⟩

theorem replySlot (h : s.AgreeOn P s') {slot : Nat} (hSlot : ∀ b, InWindow slot slotBytes b → P b) :
    ∃ t t', replySlot slot s = .next t ∧ replySlot slot s' = .next t' ∧ t.AgreeOn P t' := by
  unfold Machine.replySlot
  rw [h.readBytes hSlot]
  exact (h.reply _).endTransaction

/-- The common part of every GBWRITE reads the send window alone (44_gbwrite.md R130). -/
theorem checksumReply (h : s.AgreeOn P s') (hWindow : ∀ b, InWindow sendWindow 32 b → P b) :
    (checksumReply s).AgreeOn P (checksumReply s') where
  cfg := h.cfg
  txLog := by simp only [checksumReply_txLog, h.crc8 hWindow, h.txLog]
  fb := by
    simp only [checksumReply_fb, h.crc8 hWindow]
    exact (h.writeByte sendChecksum _).fb

/-- Staging reads the slot's payload alone (44_gbwrite.md R132, R133). -/
theorem stageByte (h : s.AgreeOn P s') (a : Nat) (v : Byte) {slot : Nat}
    (hSlot : ∀ b, InWindow slot 32 b → P b) (checksum : Nat) :
    (stageByte s a v slot checksum).AgreeOn P (stageByte s' a v slot checksum) where
  cfg := h.cfg
  txLog := h.txLog
  fb := by
    have hMarked := h.writeByte a v
    rw [stageByte_fb, stageByte_fb, hMarked.crc8 hSlot]
    exact (hMarked.writeByte checksum _).fb

end State.AgreeOn

/-- A command run from two states that agree on the bytes it reads logs the same replies, and leaves
buffers that agree wherever they did. -/
theorem exec_agreeOn {P : Nat → Prop} {s s' : State} (h : s.AgreeOn P s') (i : Instr)
    (hReads : ∀ b, commandReads i b → P b) :
    ∃ t t', exec i s = .next t ∧ exec i s' = .next t' ∧ t.AgreeOn P t' := by
  cases i with
  | short | idResetWrongLength | gbreadOther | gbreadWrongLength | gbwriteWrongLength | unrecognised =>
    exact h.endTransaction
  | id | reset => exact (h.reply identRecord).endTransaction
  | gbreadC0 | gbreadF0 => exact h.replySlot hReads
  | gbwriteInit => exact (h.checksumReply hReads).clearBuffer.endTransaction
  | gbwriteConfig =>
    have hReply := h.checksumReply fun b hb => hReads b (.inl hb)
    exact (hReply.stageByte _ _ (fun b hb => hReads b (.inr hb)) _).endTransaction
  | gbwriteSend =>
    have hReply := h.checksumReply fun b hb => hReads b (.inl hb)
    exact (hReply.stageByte _ _ (fun b hb => hReads b (.inr hb)) _).endTransaction
  | gbwriteOther => exact (h.checksumReply hReads).endTransaction

/-! ### What the command of a frame reads -/

theorem decodeGbRead_reads {f : List Bool} {b : Nat} (h : commandReads (decodeGbRead f) b) :
    f.length = 25 ∧ 0x30 ≤ b ∧ b ≤ 0x71 := by
  unfold decodeGbRead at h
  split_ifs at h with hLength hC0 hF0
  · simp only [commandReads, InWindow, statusSlot, slotBytes] at h; omega
  · simp only [commandReads, InWindow, peripheralSlot, slotBytes] at h; omega
  · exact False.elim h
  · exact False.elim h

theorem decodeGbWrite_reads {f : List Bool} {b : Nat} (h : commandReads (decodeGbWrite f) b) :
    f.length = 281 ∧ (b < 0x23 ∨ 0x30 ≤ b ∧ b ≤ 0x71) := by
  unfold decodeGbWrite at h
  split_ifs at h with hLength h80 hC0 hE0
  · simp only [commandReads, InWindow, sendWindow] at h; omega
  · simp only [commandReads, InWindow, sendWindow, statusSlot] at h; omega
  · simp only [commandReads, InWindow, sendWindow, peripheralSlot] at h; omega
  · simp only [commandReads, InWindow, sendWindow] at h; omega
  · exact False.elim h

/-- The command of a frame reads bytes the frame fills wholly, and the two slots; of frames longer than a
GBWRITE's, none. -/
theorem decode_reads {c : Config} {f : List Bool} {b : Nat} (h : commandReads (decode c f) b) :
    f.length ≤ 281 ∧ (8 * b + 8 ≤ f.length ∨ 0x30 ≤ b ∧ b ≤ 0x71) := by
  unfold decode at h
  split_ifs at h with hShort hIdent hNine hId hRead hWrite
  · exact False.elim h
  · exact False.elim h
  · exact False.elim h
  · exact False.elim h
  · have := decodeGbRead_reads h; omega
  · have := decodeGbWrite_reads h; omega
  · exact False.elim h

/-- A frame of none of the three exact lengths is dropped, whatever its bytes: every row left to it is one
whose meaning is `drop` (41_dispatch.md R92, R94, R95). -/
theorem exec_decode_of_otherLength (c : Config) {f : List Bool} (s : State) (h9 : f.length ≠ 9)
    (h25 : f.length ≠ 25) (h281 : f.length ≠ 281) :
    exec (decode c f) s = .next { s with phase := .wait } := by
  unfold decode decodeGbRead decodeGbWrite
  rw [if_neg h9, if_neg h25, if_neg h281]
  split_ifs <;> rfl

/-! ### Dispatches -/

theorem step_of_otherLength {s : State} (hValid : s.cfg.valid = true) (hPhase : s.phase = .dispatch)
    (hLength : ¬(s.rxN = 9 ∨ s.rxN = 25 ∨ s.rxN = 281)) : step s = .next { s with phase := .wait } := by
  simp only [not_or, ← State.frame_length s] at hLength
  obtain ⟨h9, h25, h281⟩ := hLength
  rw [step_of_dispatch hValid hPhase, exec_decode_of_otherLength s.cfg s h9 h25 h281]

/-- A dispatch completes in WAIT and takes no Receive. -/
theorem dispatch_frame {s t : State} (hPhase : s.phase = .dispatch) (hStep : step s = .next t) :
    t.phase = .wait ∧ t.rxQueue = s.rxQueue := by
  obtain ⟨-, ⟨hInit, -⟩ | ⟨hWait, -⟩ | ⟨-, -, hWait, -⟩ | ⟨-, hExec⟩⟩ := step_cases hStep
  · cases hPhase.symm.trans hInit
  · cases hPhase.symm.trans hWait
  · cases hPhase.symm.trans hWait
  · obtain ⟨-, hDone, -, hQueue⟩ := exec_frame hExec
    exact ⟨hDone, hQueue⟩

/-- Two dispatches of the same frame agree where their states did, as long as those bytes include the
slots: the frame itself gives the rest of what its command reads. -/
theorem dispatch_agreeOn {P : Nat → Prop} {s s' : State} (h : s.AgreeOn P s')
    (hValid : s.cfg.valid = true) (hPhase : s.phase = .dispatch) (hPhase' : s'.phase = .dispatch)
    (hFrame : s'.frame = s.frame) (hSlots : s.rxN ≤ 281 → ∀ b, 0x30 ≤ b → b ≤ 0x71 → P b) :
    ∃ t t', step s = .next t ∧ step s' = .next t' ∧ t.AgreeOn P t' := by
  have hRxN : s'.rxN = s.rxN := by simpa using congrArg List.length hFrame
  have hFrameBytes : s.AgreeOn (fun b => P b ∨ 8 * b + 8 ≤ s.rxN) s' := by
    refine ⟨h.cfg, h.txLog, fun b hb => hb.elim (h.fb b) fun hWhole => ?_⟩
    rw [← State.frameByte_frame s hWhole, ← State.frameByte_frame s' (hRxN ▸ hWhole), hFrame]
  obtain ⟨t, t', hExec, hExec', hAgree⟩ :=
    exec_agreeOn hFrameBytes (decode s.cfg s.frame) fun b hb => by
      obtain ⟨hLength, hWhole | ⟨hLow, hHigh⟩⟩ := decode_reads hb
      · exact .inr (by simpa using hWhole)
      · exact .inl (hSlots (by simpa using hLength) b hLow hHigh)
  refine ⟨t, t', ?_, ?_, hAgree.mono fun b hb => .inl hb⟩
  · rw [step_of_dispatch hValid hPhase, hExec]
  · rw [step_of_dispatch (h.cfg ▸ hValid) hPhase', h.cfg, hFrame, hExec']

/-! ### The unused bytes -/

/-- A byte that 20_memory.md R47 does not list as unused. -/
def UsedByte (b : Nat) : Prop := ¬(0x24 ≤ b ∧ b ≤ 0x2F) ∧ ¬(0x72 ≤ b ∧ b ≤ 0x7F)

/-- A frame of at most 281 bits ends in byte 0x23, before the first unused byte. -/
theorem State.AgreeOn.frame_eq {s s' : State} (h : s.AgreeOn UsedByte s') (hRxN : s'.rxN = s.rxN)
    (hShort : s.rxN ≤ 281) : s'.frame = s.frame := by
  refine List.ext_getElem (by simp [hRxN]) fun k hk' hk => ?_
  have hLength : k < s.rxN := by simpa using hk
  have hUsed : UsedByte (k / 8) := ⟨by omega, by omega⟩
  rw [State.frame_getElem _ hk', State.frame_getElem _ hk, h.fb _ hUsed]

/-- A frame of one of the three exact lengths is the same frame in both buffers, and its command reads no
unused byte; a frame of another length may lie in the unused bytes, and is dropped. -/
theorem dispatch_agreeOn_usedBytes {s s' : State} (h : s.AgreeOn UsedByte s')
    (hValid : s.cfg.valid = true) (hPhase : s.phase = .dispatch) (hPhase' : s'.phase = .dispatch)
    (hRxN : s'.rxN = s.rxN) :
    ∃ t t', step s = .next t ∧ step s' = .next t' ∧ t.AgreeOn UsedByte t' := by
  by_cases hExact : s.rxN = 9 ∨ s.rxN = 25 ∨ s.rxN = 281
  · have hFrame := h.frame_eq hRxN (by omega)
    exact dispatch_agreeOn h hValid hPhase hPhase' hFrame fun _ b _ _ => ⟨by omega, by omega⟩
  · have hDropped := step_of_otherLength hValid hPhase hExact
    have hDropped' := step_of_otherLength (h.cfg ▸ hValid) hPhase' (hRxN ▸ hExact)
    exact ⟨_, _, hDropped, hDropped', h.cfg, h.txLog, h.fb⟩

/-- Settles O50, by `dispatch_agreeOn_usedBytes`. -/
theorem unusedBytesAreNeverRead : Obligations.UnusedBytesAreNeverRead := by
  intro s fb' hValid hPhase hUsed
  have hAgree : s.AgreeOn UsedByte { s with fb := fb' } :=
    ⟨rfl, rfl, fun b ⟨hLow, hHigh⟩ => hUsed b hLow hHigh⟩
  obtain ⟨t, t', hStep, hStep', hAfter⟩ :=
    dispatch_agreeOn_usedBytes hAgree hValid hPhase hPhase rfl
  obtain ⟨hWait, -⟩ := dispatch_frame hPhase hStep
  obtain ⟨hWait', -⟩ := dispatch_frame (s := { s with fb := fb' }) hPhase hStep'
  exact ⟨t, t', hStep, hStep', hAfter.txLog, hWait'.trans hWait.symm,
    fun b hLow hHigh => hAfter.fb b ⟨hLow, hHigh⟩⟩

/-! ### The draw of a Receive -/

/-- Every byte but the one that a frame of `n` bits ends inside, if it does. -/
def NotPartlyFilled (n b : Nat) : Prop := b ≠ n / 8 ∨ n % 8 = 0

/-- Two Receives of the same bits agree where their states did, but for a byte the frame fills partly. -/
theorem receive_agreeOn {P : Nat → Prop} {s s' : State} {d d' : Delivery} (h : s.AgreeOn P s')
    (hBits : d'.bits = d.bits)
    (hWhole : ∀ b, P b → NotPartlyFilled d.bits.length b) :
    (receive s d).AgreeOn P (receive s' d') where
  cfg := h.cfg
  txLog := h.txLog
  fb b hb := by
    have hNotPartly : b ≠ d.bits.length / 8 ∨ d.bits.length % 8 = 0 := hWhole b hb
    rw [receive_read, receive_read, hBits, h.fb b hb]
    split
    · next hReached =>
      unfold bytesReached at hReached
      refine byte_eq_of_getMsbD fun i hi => ?_
      have hBit : 8 * b + i < d.bits.length := by omega
      rw [receivedByte_getMsbD _ _ _ hi, receivedByte_getMsbD _ _ _ hi,
        List.getD_eq_getElem _ _ hBit, List.getD_eq_getElem _ _ hBit]
    · rfl

/-- Settles O47: the two Receives leave the same frame, and agree but for its partly filled byte, which
lies below the slots when the frame's command reads one. -/
theorem drawReachesNoReplyOfItsTransaction : Obligations.DrawReachesNoReplyOfItsTransaction := by
  intro s bits f f' rest hValid hPhase hLimit
  have hBefore : ({ s with rxQueue := rest } : State).AgreeOn (NotPartlyFilled bits.length)
      { s with rxQueue := rest } := ⟨rfl, rfl, fun _ _ => rfl⟩
  have hReceived := receive_agreeOn (d := ⟨bits, f⟩) (d' := ⟨bits, f'⟩) hBefore rfl fun _ hb => hb
  have hFrame : (receive { s with rxQueue := rest } ⟨bits, f'⟩).frame =
      (receive { s with rxQueue := rest } ⟨bits, f⟩).frame := by simp only [receive_frame]
  obtain ⟨t, t', hStep, hStep', hAgree⟩ := dispatch_agreeOn hReceived hValid rfl rfl hFrame
    fun (hLength : bits.length ≤ 281) b _ _ => .inl (by omega)
  have hReceive (fill : Byte) : step { s with rxQueue := ⟨bits, fill⟩ :: rest } =
      .next (receive { s with rxQueue := rest } ⟨bits, fill⟩) :=
    step_of_delivery (s := { s with rxQueue := ⟨bits, fill⟩ :: rest }) hValid hPhase rfl hLimit
  refine ⟨t, t', ?_, ?_, hAgree.txLog, hAgree.fb⟩
  · rw [transaction_of_next (hReceive f), hStep]
  · rw [transaction_of_next (hReceive f'), hStep']

/-! ### Runs that differ only in the draws of frames that reach no slot -/

/-- Two states of runs over the same frames with other draws, no frame longer than 384 bits: they agree
from 0x30 on, and on the frame while it is dispatched. -/
structure State.SameButDraws (s s' : State) : Prop where
  agree : s.AgreeOn (0x30 ≤ ·) s'
  phase : s'.phase = s.phase
  bits : s'.rxQueue.map (·.bits) = s.rxQueue.map (·.bits)
  short : ∀ d ∈ s.rxQueue, d.bits.length ≤ 384
  frame : s.phase = .dispatch → s'.frame = s.frame

/-- A Receive of at most 384 bits reaches no byte from 0x30 on, and leaves the frame as delivered. -/
theorem State.SameButDraws.receive {s s' : State} (h : s.SameButDraws s') {d : Delivery}
    {rest : List Delivery} (hQueue : s.rxQueue = d :: rest) :
    ∃ d' rest', s'.rxQueue = d' :: rest' ∧ d'.bits = d.bits ∧
      (receive { s with rxQueue := rest } d).SameButDraws (receive { s' with rxQueue := rest' } d') := by
  obtain ⟨hAgree, -, hBits, hShort, -⟩ := h
  rw [hQueue, List.map_cons, List.map_eq_cons_iff] at hBits
  rw [hQueue, List.forall_mem_cons] at hShort
  obtain ⟨d', rest', hQueue', hHead, hTail⟩ := hBits
  obtain ⟨hFits, hShort⟩ := hShort
  have hBefore : ({ s with rxQueue := rest } : State).AgreeOn (0x30 ≤ ·) { s' with rxQueue := rest' } :=
    ⟨hAgree.cfg, hAgree.txLog, hAgree.fb⟩
  have hBelow : ∀ b, 0x30 ≤ b → NotPartlyFilled d.bits.length b := fun b _ => by
    unfold NotPartlyFilled; omega
  exact ⟨d', rest', hQueue', hHead, receive_agreeOn hBefore hHead hBelow, rfl, hTail, hShort,
    fun _ => by rw [receive_frame, receive_frame, hHead]⟩

/-- Each step from one of two such states is matched from the other. -/
theorem State.SameButDraws.step {s s' t : State} (h : s.SameButDraws s') (hStep : step s = .next t) :
    ∃ t', step s' = .next t' ∧ t.SameButDraws t' := by
  obtain ⟨hValid, hCases⟩ := step_cases hStep
  have hValid' : s'.cfg.valid = true := by rw [h.agree.cfg, hValid]
  rcases hCases with ⟨hPhase, rfl⟩ | ⟨hPhase, hQueue, rfl⟩ | ⟨d, rest, hPhase, hQueue, hLimit, rfl⟩ |
    ⟨hPhase, -⟩
  · refine ⟨_, step_of_init hValid' (h.phase.trans hPhase), ?_⟩
    exact ⟨⟨h.agree.cfg, h.agree.txLog, h.agree.fb⟩, rfl, h.bits, h.short, nofun⟩
  · have hQueue' : s'.rxQueue = [] := by simpa [hQueue] using h.bits
    exact ⟨s', step_of_wait_nil hValid' (h.phase.trans hPhase) hQueue', h⟩
  · obtain ⟨d', rest', hQueue', hBits, hAfter⟩ := h.receive hQueue
    refine ⟨_, step_of_delivery hValid' (h.phase.trans hPhase) hQueue' ?_, hAfter⟩
    rw [hBits, h.agree.cfg]
    exact hLimit
  · have hPhase' := h.phase.trans hPhase
    obtain ⟨u, t', hFirst, hStep', hAgree⟩ := dispatch_agreeOn h.agree hValid hPhase hPhase'
      (h.frame hPhase) fun _ b hLow _ => hLow
    obtain rfl : u = t := by simpa [hFirst] using hStep
    obtain ⟨hWait, hQueue⟩ := dispatch_frame hPhase hStep
    obtain ⟨hWait', hQueue'⟩ := dispatch_frame hPhase' hStep'
    refine ⟨t', hStep', hAgree, hWait'.trans hWait.symm, ?_, ?_, ?_⟩
    · rw [hQueue, hQueue', h.bits]
    · rw [hQueue]
      exact h.short
    · rw [hWait]
      nofun

/-- Each run from one of two such states is matched from the other. -/
theorem State.SameButDraws.runSteps {k : Nat} {s s' t : State} (h : s.SameButDraws s')
    (hRun : runSteps k s = .next t) : ∃ t', runSteps k s' = .next t' ∧ t.SameButDraws t' := by
  induction k generalizing s s' with
  | zero =>
    obtain rfl : s = t := by simpa using hRun
    exact ⟨s', rfl, h⟩
  | succ k ih =>
    obtain ⟨u, hStep, hRest⟩ := step_of_runSteps hRun
    obtain ⟨u', hStep', hNext⟩ := h.step hStep
    rw [runSteps_succ_of_next hStep']
    exact ih hNext hRest

/-- Settles O48: the two runs start with the same buffer, and each step keeps `SameButDraws`. -/
theorem drawsOfShorterFramesReachNoReply : Obligations.DrawsOfShorterFramesReachNoReply := by
  intro k s t q hBits hShort hRun
  have hStart : s.SameButDraws { s with rxQueue := q } :=
    ⟨⟨rfl, rfl, fun _ _ => rfl⟩, rfl, hBits, hShort, fun _ => rfl⟩
  obtain ⟨t', hRun', hEnd⟩ := hStart.runSteps hRun
  exact ⟨t', hRun', hEnd.agree.txLog, hEnd.phase, hEnd.agree.fb⟩

end Sys2Proof.Machine

/-! PROOFS. The encoding (30_encoding.md): a frame is its bytes' bits and a trailing bit, so encoding what
was decoded gives the frame back; the notated frames of R70; the frames a table word stands for; and what the
commands make of byte 2 and the trailing bit (R64). -/

namespace Sys2Proof

/-- Settles O16, by `decode_encode`. -/
theorem encodeThenDecode : Obligations.EncodeThenDecode := fun _ _ hValid hWf => decode_encode hValid hWf

/-! ### A frame from its bytes -/

/-- Bit `k` of a byte string in wire order is bit `k mod 8` from the top of byte `k div 8` (20_memory.md
R51, R56). -/
theorem bitsOfBytes_getElem {bs : List Byte} {k : Nat} (hk : k < (bitsOfBytes bs).length)
    (hByte : k / 8 < bs.length) : (bitsOfBytes bs)[k] = bs[k / 8].getMsbD (k % 8) := by
  have hFrameByte : frameByte (bitsOfBytes bs) (k / 8) = bs[k / 8] := by
    simpa using frameByte_bitsOfBytes_append hByte []
  have hWhole : 8 * (k / 8) + 8 ≤ (bitsOfBytes bs).length := by rw [bitsOfBytes_length]; omega
  rw [← hFrameByte, frameByte_getMsbD hWhole (Nat.mod_lt k (by decide))]
  simp only [Nat.div_add_mod]

/-- A frame of `n` whole bytes and one more bit is written from those bytes and that bit. -/
theorem encodeFrame_frameBytes {f : List Bool} {n : Nat} (hLength : f.length = 8 * n + 1) :
    encodeFrame ((List.range n).map (frameByte f)) (f.getD (8 * n) false) = f := by
  refine List.ext_getElem (by simp [hLength]) fun k hk hkf => ?_
  by_cases hTrailing : k = 8 * n
  · subst hTrailing
    rw [← List.getD_eq_getElem _ false hk, encodeFrame_getD_trailing (by simp),
      List.getD_eq_getElem _ _ hkf]
  · have hByte : k / 8 < n := by omega
    have hBits : k < (bitsOfBytes ((List.range n).map (frameByte f))).length := by
      rw [bitsOfBytes_length, List.length_map, List.length_range]; omega
    simp only [encodeFrame, List.getElem_append_left hBits]
    rw [bitsOfBytes_getElem hBits (by simpa using hByte), List.getElem_map, List.getElem_range,
      frameByte_getMsbD (by omega) (Nat.mod_lt k (by decide))]
    simp only [Nat.div_add_mod]

/-- A frame of 9 bits is its opcode and trailing bit (30_encoding.md R61). -/
theorem encodeFrame_of_length_nine {f : List Bool} {op : Byte} (hLength : f.length = 9)
    (hOp : frameByte f 0 = op) : encodeFrame [op] (f.getD 8 false) = f := by
  rw [← hOp]
  exact encodeFrame_frameBytes (n := 1) hLength

/-- A frame of 25 bits with GBREAD's opcode is the `GBREAD` of its fields (30_encoding.md R62). -/
theorem gbreadFrame_of_fields {c : Config} {f : List Bool} {s : Byte} (hLength : f.length = 25)
    (hOp : frameByte f 0 = c.opGbRead) (hSub : frameByte f 1 = s) :
    gbreadFrame c s (frameByte f 2) (f.getD 24 false) = f := by
  rw [gbreadFrame, ← hOp, ← hSub]
  exact encodeFrame_frameBytes (n := 3) hLength

/-- The bytes of a GBWRITE frame are its three leading bytes and its payload (30_encoding.md R63). -/
theorem frameBytes_eq_cons_framePayload (f : List Bool) :
    (List.range 35).map (frameByte f) =
      frameByte f 0 :: frameByte f 1 :: frameByte f 2 :: framePayload f := by
  rw [show 35 = 3 + 32 from rfl, List.range_add, List.map_append, List.map_map]
  rfl

/-- A frame of 281 bits with GBWRITE's opcode is the `GBWRITE` of its fields (30_encoding.md R63). -/
theorem gbwriteFrame_of_fields {c : Config} {f : List Bool} {s : Byte} (hLength : f.length = 281)
    (hOp : frameByte f 0 = c.opGbWrite) (hSub : frameByte f 1 = s) :
    gbwriteFrame c s (frameByte f 2) (framePayload f) (f.getD 280 false) = f := by
  rw [gbwriteFrame, ← hOp, ← hSub, ← frameBytes_eq_cons_framePayload]
  exact encodeFrame_frameBytes (n := 35) hLength

@[simp] theorem framePayload_length (f : List Bool) : (framePayload f).length = 32 := by
  simp [framePayload]

/-! ### Every frame is the frame of the command it decodes to -/

/-- Rows 5 to 8: at 25 bits the conditions on the sub-opcode are the row's, and the fields are the frame. -/
theorem decodeGbRead_wellFormed_encode {c : Config} {f : List Bool} (h9 : 9 ≤ f.length)
    (hLimit : f.length ≤ c.maxRxBits) (hOp : frameByte f 0 = c.opGbRead) :
    (decodeGbRead f).wellFormed c = true ∧ encode c (decodeGbRead f) = f := by
  unfold decodeGbRead
  split_ifs with hLength hC0 hF0
  · exact ⟨rfl, gbreadFrame_of_fields hLength hOp hC0⟩
  · exact ⟨rfl, gbreadFrame_of_fields hLength hOp hF0⟩
  · refine ⟨?_, gbreadFrame_of_fields hLength hOp rfl⟩
    simp only [Instr.wellFormed, Bool.and_eq_true, bne_iff_ne]
    exact ⟨hC0, hF0⟩
  · exact ⟨by simp [Instr.wellFormed, h9, hLimit, hLength, hOp], rfl⟩

/-- Rows 9 to 13: at 281 bits the conditions on the sub-opcode are the row's, and the fields are the
frame. -/
theorem decodeGbWrite_wellFormed_encode {c : Config} {f : List Bool} (h9 : 9 ≤ f.length)
    (hLimit : f.length ≤ c.maxRxBits) (hOp : frameByte f 0 = c.opGbWrite) :
    (decodeGbWrite f).wellFormed c = true ∧ encode c (decodeGbWrite f) = f := by
  have hPayload := beq_iff_eq.mpr (framePayload_length f)
  unfold decodeGbWrite
  split_ifs with hLength h80 hC0 hE0
  · exact ⟨hPayload, gbwriteFrame_of_fields hLength hOp h80⟩
  · exact ⟨hPayload, gbwriteFrame_of_fields hLength hOp hC0⟩
  · exact ⟨hPayload, gbwriteFrame_of_fields hLength hOp hE0⟩
  · refine ⟨?_, gbwriteFrame_of_fields hLength hOp rfl⟩
    simp only [Instr.wellFormed, Bool.and_eq_true, bne_iff_ne]
    exact ⟨⟨⟨h80, hC0⟩, hE0⟩, hPayload⟩
  · exact ⟨by simp [Instr.wellFormed, h9, hLimit, hLength, hOp], rfl⟩

/-- The decoder's conditions along each branch are the well-formedness of the row at its end, and the
row's fields hold every bit of the frame. -/
theorem decode_wellFormed_encode {c : Config} {f : List Bool} (hLimit : f.length ≤ c.maxRxBits) :
    (decode c f).wellFormed c = true ∧ encode c (decode c f) = f := by
  unfold decode
  split_ifs with hShort hIdent hLength hId hRead hWrite
  · exact ⟨decide_eq_true hShort, rfl⟩
  · exact ⟨rfl, encodeFrame_of_length_nine hLength hId⟩
  · have hReset : frameByte f 0 = c.opReset := hIdent.resolve_left hId
    exact ⟨bne_iff_ne.mpr fun hSame => hId (hReset.trans hSame), encodeFrame_of_length_nine hLength hReset⟩
  · have hLong : 9 < f.length := by omega
    exact ⟨by simp [Instr.wellFormed, hLong, hLimit, hIdent], rfl⟩
  · exact decodeGbRead_wellFormed_encode (by omega) hLimit hRead
  · exact decodeGbWrite_wellFormed_encode (by omega) hLimit hWrite
  · obtain ⟨hId, hReset⟩ := not_or.mp hIdent
    have h9 : 9 ≤ f.length := by omega
    exact ⟨by simp [Instr.wellFormed, h9, hLimit, hId, hReset, hRead, hWrite], rfl⟩

/-- Settles O17, by `decode_wellFormed_encode`; that no two opcodes collide is not needed in this direction. -/
theorem decodeThenEncode : Obligations.DecodeThenEncode := fun _ _ _ hLimit => decode_wellFormed_encode hLimit

/-! ### The notated frames of R70 -/

/-- Where RESET shares ID's opcode the two frames are one, which row 2 takes (00_scope.md R10 (c)). -/
theorem decode_resetFrame_ite (c : Config) (t : Bool) :
    decode c (resetFrame c t) = if c.opReset = c.opId then .id t else .reset t := by
  split_ifs with hSame
  · rw [resetFrame, hSame]
    exact decode_idFrame c t
  · exact decode_resetFrame hSame t

/-- A `RAW` frame shows its bytes' bits as far as they and the frame go. -/
theorem rawFrame_getD {n : Nat} {bytes : List Byte} {k : Nat} (hk : k < n) (hByte : k / 8 < bytes.length) :
    (rawFrame n bytes).getD k false = bytes[k / 8].getMsbD (k % 8) := by
  have hBits : k < (bitsOfBytes bytes).length := by rw [bitsOfBytes_length]; omega
  rw [List.getD_eq_getElem _ _ (by simpa using hk), ← bitsOfBytes_getElem hBits hByte]
  simp only [rawFrame, List.getElem_take, List.getElem_append_left hBits]

/-- Settles O18, from the length and the decoding of each notated frame. -/
theorem notatedFramesDecode : Obligations.NotatedFramesDecode := by
  refine ⟨fun c s b d t hValid hd => ?_, fun n bytes => ⟨rawFrame_length n bytes, fun k hk h => ?_⟩⟩
  · exact ⟨idFrame_length c t, decode_idFrame c t, resetFrame_length c t, decode_resetFrame_ite c t,
      gbreadFrame_length c s b t, decode_gbreadFrame hValid s b t,
      by rw [gbwriteFrame_length, hd], decode_gbwriteFrame hValid s b hd t⟩
  · exact rawFrame_getD hk (by omega)

/-- Settles O19: each list of bits is the frame of the command it is read as. -/
theorem sampleFramesDecode : Obligations.SampleFramesDecode := by
  have hRoundTrip {i : Instr} (hWf : i.wellFormed Config.default = true) {f : List Bool}
      (hFrame : f = encode Config.default i) : decode Config.default f = i :=
    hFrame ▸ decode_encode Config.default_valid hWf
  exact ⟨hRoundTrip rfl rfl, hRoundTrip rfl rfl, hRoundTrip rfl rfl, hRoundTrip rfl rfl,
    hRoundTrip rfl (by decide +kernel)⟩

namespace Machine

/-- Settles O22: `withFetchWord` is the Receive of the table word's frame, so the next step runs what that
frame decodes to. -/
theorem fetchedTableWordRuns : Obligations.FetchedTableWordRuns := by
  intro s nbits w hCfg
  have hStep := step_receive (s := s) (hCfg ▸ Config.default_valid) ⟨tableFrame nbits w, 0⟩
  rw [hCfg] at hStep
  exact ⟨_, rfl, hStep⟩

/-! ### The meanings of the commands that carry byte 2 or a trailing bit -/

theorem exec_id (t : Bool) (s : State) : exec (.id t) s = replyIdent s := rfl

theorem exec_reset (t : Bool) (s : State) : exec (.reset t) s = replyIdent s := rfl

theorem exec_gbreadC0 (b2 : Byte) (t : Bool) (s : State) :
    exec (.gbreadC0 b2 t) s = replySlot statusSlot s := rfl

theorem exec_gbreadF0 (b2 : Byte) (t : Bool) (s : State) :
    exec (.gbreadF0 b2 t) s = replySlot peripheralSlot s := rfl

theorem exec_gbreadOther (sub b2 : Byte) (t : Bool) (s : State) :
    exec (.gbreadOther sub b2 t) s = drop s := rfl

theorem exec_gbwriteInit (b2 : Byte) (d : List Byte) (t : Bool) (s : State) :
    exec (.gbwriteInit b2 d t) s = endTransaction (checksumReply s).clearBuffer := rfl

theorem exec_gbwriteConfig (b2 : Byte) (d : List Byte) (t : Bool) (s : State) :
    exec (.gbwriteConfig b2 d t) s =
      endTransaction (stageByte (checksumReply s) statusSlot 0x02 statusSlot statusChecksum) := rfl

theorem exec_gbwriteSend (b2 : Byte) (d : List Byte) (t : Bool) (s : State) :
    exec (.gbwriteSend b2 d t) s =
      endTransaction
        (stageByte (checksumReply s) peripheralMarker 0x81 peripheralSlot peripheralChecksum) := rfl

theorem exec_gbwriteOther (sub b2 : Byte) (d : List Byte) (t : Bool) (s : State) :
    exec (.gbwriteOther sub b2 d t) s = endTransaction (checksumReply s) := rfl

/-- Settles O51: byte 2 and the trailing bit stand on no right-hand side of the nine equations above. -/
theorem commandsIgnoreByteTwoAndTheTrailingBit :
    Obligations.CommandsIgnoreByteTwoAndTheTrailingBit := by
  intro s sub b b' d t t'
  simp only [exec_id, exec_reset, exec_gbreadC0, exec_gbreadF0, exec_gbreadOther, exec_gbwriteInit,
    exec_gbwriteConfig, exec_gbwriteSend, exec_gbwriteOther, and_self]

/-! ### Two frames that differ in byte 2 and the trailing bit alone -/

/-- Frames of one length that agree on every bit but those of byte 2 and the last. -/
structure SameInspectedBits (f f' : List Bool) : Prop where
  length : f'.length = f.length
  bits : ∀ k, k < f.length → ¬(16 ≤ k ∧ k < 24) → k + 1 ≠ f.length → f'.getD k false = f.getD k false

namespace SameInspectedBits

variable {f f' : List Bool}

/-- They have the same bytes but byte 2, as far as the bytes before the last bit go. -/
theorem frameByte_eq (h : SameInspectedBits f f') {j : Nat} (hj : j ≠ 2) (hWhole : 8 * j + 8 < f.length) :
    frameByte f' j = frameByte f j := by
  obtain ⟨hLength, hBits⟩ := h
  refine byte_eq_of_getMsbD fun i hi => ?_
  have hBit := hBits (8 * j + i) (by omega) (by omega) (by omega)
  rw [List.getD_eq_getElem _ _ (by omega), List.getD_eq_getElem _ _ (by omega)] at hBit
  rw [frameByte_getMsbD (by omega) hi, frameByte_getMsbD (by omega) hi, hBit]

/-- Both frames decode to the same row of GBREAD's, up to fields that no meaning uses. -/
theorem exec_decodeGbRead (h : SameInspectedBits f f') (s : State) :
    exec (decodeGbRead f') s = exec (decodeGbRead f) s := by
  unfold decodeGbRead
  rw [h.length]
  split
  · next hLength =>
    rw [h.frameByte_eq (j := 1) (by decide) (by omega)]
    split_ifs
    · simp only [exec_gbreadC0]
    · simp only [exec_gbreadF0]
    · simp only [exec_gbreadOther]
  · rfl

/-- Both frames decode to the same row of GBWRITE's, up to fields that no meaning uses. -/
theorem exec_decodeGbWrite (h : SameInspectedBits f f') (s : State) :
    exec (decodeGbWrite f') s = exec (decodeGbWrite f) s := by
  unfold decodeGbWrite
  rw [h.length]
  split
  · next hLength =>
    rw [h.frameByte_eq (j := 1) (by decide) (by omega)]
    split_ifs
    · simp only [exec_gbwriteInit]
    · simp only [exec_gbwriteConfig]
    · simp only [exec_gbwriteSend]
    · simp only [exec_gbwriteOther]
  · rfl

/-- Both frames' commands do the same in every state: the opcode and the sub-opcode select the row, and
what is left to differ no meaning uses. -/
theorem exec_decode (h : SameInspectedBits f f') (c : Config) (s : State) :
    exec (decode c f') s = exec (decode c f) s := by
  by_cases hShort : f.length < 9
  · rw [decode_of_lt_nine hShort, decode_of_lt_nine (h.length ▸ hShort)]
    rfl
  · rw [decode, decode, h.length, if_neg hShort, if_neg hShort,
      h.frameByte_eq (j := 0) (by decide) (by omega)]
    split_ifs
    · simp only [exec_id]
    · simp only [exec_reset]
    · rfl
    · exact h.exec_decodeGbRead s
    · exact h.exec_decodeGbWrite s
    · rfl

/-- Receives of the two frames, with any draws, leave the same bytes wherever the frame does not reach and
wherever it fills a byte other than byte 2 wholly. -/
theorem receive_agreeOn (h : SameInspectedBits f f') (s : State) (fill fill' : Byte) :
    (receive s ⟨f, fill⟩).AgreeOn
      (fun b => b ≠ 2 ∧ (8 * b + 8 < f.length ∨ bytesReached f.length ≤ b))
      (receive s ⟨f', fill'⟩) where
  cfg := rfl
  txLog := rfl
  fb b hb := by
    obtain ⟨hTwo, hWhole | hBeyond⟩ := hb
    · have hFrameByte := h.frameByte_eq hTwo hWhole
      have hLength := h.length
      rwa [← State.frameByte_frame, ← State.frameByte_frame, receive_frame, receive_frame]
      · simp only [receive_rxN]; omega
      · simp only [receive_rxN]; omega
    · have hBeyond' : bytesReached f'.length ≤ b := by rwa [h.length]
      rw [receive_read_beyond s ⟨f, fill⟩ hBeyond, receive_read_beyond s ⟨f', fill'⟩ hBeyond']

end SameInspectedBits

/-- No command reads the frame's first three bytes: the send window starts at 0x03 (20_memory.md R44). -/
theorem three_le_of_commandReads {i : Instr} {b : Nat} (h : commandReads i b) : 3 ≤ b := by
  cases i with
  | short | idResetWrongLength | gbreadOther | gbreadWrongLength | gbwriteWrongLength | unrecognised
  | id | reset => exact False.elim h
  | gbreadC0 | gbreadF0 | gbwriteInit | gbwriteConfig | gbwriteSend | gbwriteOther =>
    simp only [commandReads, InWindow, sendWindow, statusSlot, peripheralSlot] at h
    omega

/-- At the three exact lengths a command reads no byte that byte 2 or the trailing bit lies in: the bytes
it reads of its own frame are whole ones, the trailing bit stands alone in the last, and the slots lie
beyond. -/
theorem decode_reads_inspected {c : Config} {f : List Bool}
    (hLength : f.length = 9 ∨ f.length = 25 ∨ f.length = 281) {b : Nat}
    (hReads : commandReads (decode c f) b) :
    b ≠ 2 ∧ (8 * b + 8 < f.length ∨ bytesReached f.length ≤ b) := by
  have hFrom3 := three_le_of_commandReads hReads
  obtain ⟨-, hWhole | hSlots⟩ := decode_reads hReads
  · exact ⟨by omega, .inl (by omega)⟩
  · exact ⟨by omega, .inr (by unfold bytesReached; omega)⟩

/-- A transaction is the meaning of its frame's command, run where the Receive left the buffer. -/
theorem transaction_of_delivery {s : State} {d : Delivery} {rest : List Delivery}
    (hValid : s.cfg.valid = true) (hPhase : s.phase = .wait) (hQueue : s.rxQueue = d :: rest)
    (hLimit : d.bits.length ≤ s.cfg.maxRxBits) :
    transaction s = exec (decode s.cfg d.bits) (receive { s with rxQueue := rest } d) := by
  rw [transaction_of_next (step_of_delivery hValid hPhase hQueue hLimit)]
  exact step_receive (s := { s with rxQueue := rest }) hValid d

/-- Settles O49: the two commands have one meaning (`SameInspectedBits.exec_decode`), and it reads only
bytes on which the two Receives agree. -/
theorem uninspectedBitsReachNoReply : Obligations.UninspectedBitsReachNoReply := by
  intro s bits bits' f f' rest hValid hPhase hLength hSameLength hSameBits
  have hSame : SameInspectedBits bits bits' := ⟨hSameLength, hSameBits⟩
  have hLimit : bits.length ≤ s.cfg.maxRxBits := by
    have := Laws.EncodedLength.bits_received hValid
    omega
  obtain ⟨t, t', hExec, hExec', hAgree⟩ :=
    exec_agreeOn (hSame.receive_agreeOn { s with rxQueue := rest } f f') (decode s.cfg bits)
      fun b hReads => decode_reads_inspected hLength hReads
  have hTransaction (d : Delivery) (hFits : d.bits.length ≤ s.cfg.maxRxBits) :=
    transaction_of_delivery (s := { s with rxQueue := d :: rest }) hValid hPhase rfl hFits
  refine ⟨t, t', (hTransaction ⟨bits, f⟩ hLimit).trans hExec, ?_, hAgree.txLog⟩
  rw [hTransaction ⟨bits', f'⟩ (hSameLength.trans_le hLimit), hSame.exec_decode]
  exact hExec'

end Machine

end Sys2Proof

/-! PROOFS. The CRC Engine (40_crc_engine.md): first the laws of R85, from one step of the fold and for every
table, then those of R86 and R87, at the default table, from the linearity of one shift. -/

namespace Sys2Proof

/-- A byte at the end of a byte string goes out last (20_memory.md R56). -/
theorem bitsOfBytes_concat (u : List Byte) (b : Byte) :
    bitsOfBytes (u ++ [b]) = bitsOfBytes u ++ bitsOfByte b := by
  simp [bitsOfBytes]

/-! ### One shift of the default table's definition -/

/-- The reduction that one shift makes, as an exclusive-or with a byte that depends on bit 7 alone. -/
theorem crcShift_eq_xor (c : Byte) : crcShift c = (c <<< 1) ^^^ (if c.getLsbD 7 then 0x85 else 0) := by
  unfold crcShift
  split <;> simp

/-- One shift is linear over exclusive-or: two reductions cancel. -/
theorem crcShift_xor (a b : Byte) : crcShift (a ^^^ b) = crcShift a ^^^ crcShift b := by
  have hReduction : (if (a ^^^ b).getLsbD 7 then 0x85 else 0 : Byte) =
      (if a.getLsbD 7 then 0x85 else 0) ^^^ (if b.getLsbD 7 then 0x85 else 0) := by
    rw [BitVec.getLsbD_xor]
    cases a.getLsbD 7 <;> cases b.getLsbD 7 <;> rfl
  rw [crcShift_eq_xor, crcShift_eq_xor a, crcShift_eq_xor b, hReduction, BitVec.shiftLeft_xor_distrib]
  ac_rfl

theorem crcEntry_xor (a b : Byte) : crcEntry (a ^^^ b) = crcEntry a ^^^ crcEntry b := by
  simp only [crcEntry, crcShift_xor]

theorem crcEntry_eq_iterate (c : Byte) : crcEntry c = crcShift^[8] c := rfl

namespace Machine

/-! ### The fold, for every table and seed -/

/-- One more byte is one more step of the fold (40_crc_engine.md R81). -/
theorem crcFold_concat (c : Config) (u : List Byte) (b : Byte) :
    crcFold c (u ++ [b]) = crcLookup c (crcFold c u ^^^ b) := by
  simp [crcFold]

/-- A zero byte applies the table to the accumulator (40_crc_engine.md R85 (a), for any number of them). -/
theorem crcFold_zeros (c : Config) (k : Nat) :
    crcFold c (List.replicate k 0x00) = (crcLookup c)^[k] c.crcInit := by
  induction k with
  | zero => rfl
  | succ k ih =>
    rw [List.replicate_succ', crcFold_concat, ih, Function.iterate_succ_apply']
    exact congrArg (crcLookup c) BitVec.xor_zero

/-- A table of 256 distinct entries tells its indices apart. -/
theorem crcLookup_injective {c : Config} (hLength : c.crcTable.length = 256) (hNodup : c.crcTable.Nodup) :
    Function.Injective (crcLookup c) := by
  intro i j hEntries
  have hRange (b : Byte) : b.toNat < c.crcTable.length := hLength ▸ b.isLt
  simp only [crcLookup, List.getD_eq_getElem _ _ (hRange _), hNodup.getElem_inj_iff] at hEntries
  exact BitVec.eq_of_toNat_eq hEntries

/-- Settles O52: (a) is `crcFold_zeros`, whose iterates stay at the fixed point 0 in (b), and in (c) the
`x` is the fold of the window's first bytes. -/
theorem crcLawsForEveryTable : Obligations.CrcLawsForEveryTable := by
  intro c
  refine ⟨crcFold_zeros c 32, fun hInit hEntry => ?_, fun u _ => ⟨crcFold c u, fun b b' => ?_⟩⟩
  · have hZeros (k : Nat) : crcFold c (List.replicate k 0x00) = 0x00 := by
      rw [crcFold_zeros, hInit, Function.iterate_fixed hEntry]
    refine ⟨hZeros, fun b => ?_⟩
    rw [crcFold_concat, hZeros]
    exact congrArg (crcLookup c) BitVec.zero_xor
  · refine ⟨crcFold_concat c u b, crcFold_concat c u b', fun hLength hNodup hBytes hSame => hBytes ?_⟩
    rw [crcFold_concat, crcFold_concat] at hSame
    exact BitVec.xor_right_inj _ |>.mp (crcLookup_injective hLength hNodup hSame)

/-! ### The fold at the default table and seed -/

/-- Settles O53: the 256 listed entries against the definition. -/
theorem defaultTableFollowsItsDefinition : Obligations.DefaultTableFollowsItsDefinition := by
  unfold Obligations.DefaultTableFollowsItsDefinition
  decide +kernel

theorem crcLookup_default (x : Byte) : crcLookup Config.default x = crcEntry x :=
  defaultTableFollowsItsDefinition x

theorem crcFold_default_concat (u : List Byte) (b : Byte) :
    crcFold Config.default (u ++ [b]) = crcEntry (crcFold Config.default u ^^^ b) := by
  rw [crcFold_concat, crcLookup_default]

/-- Settles O54: each step of the fold, an exclusive-or and an entry, is linear (`crcEntry_xor`). -/
theorem defaultCrcIsLinear : Obligations.DefaultCrcIsLinear := by
  intro u
  induction u using List.reverseRecOn with
  | nil =>
    intro v hLength
    cases List.length_eq_zero_iff.mp hLength.symm
    rfl
  | append_singleton u a ih =>
    intro v hLength
    obtain rfl | ⟨v, b, rfl⟩ := v.eq_nil_or_concat'
    · simp at hLength
    · have hInit : u.length = v.length := by simpa using hLength
      rw [List.zipWith_append hInit, List.zipWith_cons_cons, List.zipWith_nil_left]
      simp only [crcFold_default_concat]
      rw [ih v hInit, ← crcEntry_xor]
      congr 1
      ac_rfl

/-! ### The bit-serial register -/

/-- The bit enters at a place the shift left empty, so it can be taken in after the reduction. -/
theorem crcSerialBit_eq_xor (r : Byte) (b : Bool) :
    crcSerialBit r b = crcShift r ^^^ (if b then 1 else 0) := by
  have hEnters : (r <<< 1) ||| (if b then 1 else 0 : Byte) = (r <<< 1) ^^^ (if b then 1 else 0) := by
    cases b
    · simp
    · revert r; decide +kernel
  rw [crcSerialBit, hEnters, crcShift]
  split
  · ac_rfl
  · rfl

theorem crcSerialBit_xor (r r' : Byte) (b : Bool) :
    crcSerialBit (r ^^^ r') b = crcShift r ^^^ crcSerialBit r' b := by
  rw [crcSerialBit_eq_xor, crcSerialBit_eq_xor, crcShift_xor, BitVec.xor_assoc]

/-- What the register holds and what comes in do not meet on the way through. -/
theorem foldl_crcSerialBit_xor (bits : List Bool) (r r' : Byte) :
    bits.foldl crcSerialBit (r ^^^ r') = crcShift^[bits.length] r ^^^ bits.foldl crcSerialBit r' := by
  induction bits generalizing r r' with
  | nil => rfl
  | cons b bits ih => rw [List.foldl_cons, crcSerialBit_xor, ih]; rfl

/-- A byte that enters the empty register just fills it. -/
theorem foldl_crcSerialBit_bitsOfByte_zero (b : Byte) : (bitsOfByte b).foldl crcSerialBit 0 = b := by
  revert b; decide +kernel

/-- A byte through the register is one entry of the default table, met by the byte at the bottom. -/
theorem foldl_crcSerialBit_bitsOfByte (r b : Byte) :
    (bitsOfByte b).foldl crcSerialBit r = crcEntry r ^^^ b := by
  have h := foldl_crcSerialBit_xor (bitsOfByte b) r 0
  rwa [foldl_crcSerialBit_bitsOfByte_zero, bitsOfByte_length, ← crcEntry_eq_iterate,
    show r ^^^ 0 = r from BitVec.xor_zero] at h

/-- The fold is one entry ahead of the register. -/
theorem crcFold_default_eq_crcEntry (window : List Byte) :
    crcFold Config.default window = crcEntry ((bitsOfBytes window).foldl crcSerialBit 0) := by
  induction window using List.reverseRecOn with
  | nil => rfl
  | append_singleton u b ih =>
    rw [crcFold_default_concat, ih, bitsOfBytes_concat, List.foldl_append, foldl_crcSerialBit_bitsOfByte]

/-- Settles O55: the zero byte at the end takes the register the one entry further. -/
theorem defaultCrcEqualsBitSerialForm : Obligations.DefaultCrcEqualsBitSerialForm := by
  intro window
  rw [crcFold_default_eq_crcEntry, crcSerial, bitsOfBytes_concat, List.foldl_append,
    foldl_crcSerialBit_bitsOfByte]
  exact BitVec.xor_zero.symm

/-! ### The polynomials over GF(2) -/

section Polynomials

open Polynomial

/-- Bits as a polynomial over GF(2), the constant term last (40_crc_engine.md R87 (b)). -/
noncomputable def polyOfBits (bits : List Bool) : (ZMod 2)[X] :=
  bits.foldl (fun p b => X * p + if b then 1 else 0) 0

/-- The generator polynomial of 40_crc_engine.md R86. -/
noncomputable def crcGenerator : (ZMod 2)[X] := X ^ 8 + X ^ 7 + X ^ 2 + 1

theorem polyOfBits_concat (bits : List Bool) (b : Bool) :
    polyOfBits (bits ++ [b]) = X * polyOfBits bits + if b then 1 else 0 := by
  simp [polyOfBits]

/-- `n` bits make a polynomial of degree below `n`. -/
theorem degree_polyOfBits_lt (bits : List Bool) : (polyOfBits bits).degree < bits.length := by
  induction bits using List.reverseRecOn with
  | nil => simp [polyOfBits]
  | append_singleton bits b ih =>
    rw [degree_lt_iff_coeff_zero] at ih ⊢
    intro m hm
    rw [List.length_append, List.length_singleton] at hm
    obtain ⟨m, rfl⟩ : ∃ k, m = k + 1 := Nat.exists_eq_add_one.mpr (by omega)
    have hConst : (if b then 1 else 0 : (ZMod 2)[X]).coeff (m + 1) = 0 := by
      cases b <;> simp [coeff_one]
    rw [polyOfBits_concat, coeff_add, coeff_X_mul, hConst, ih m (by omega), add_zero]

/-- Zero bits at the end multiply by a power of x. -/
theorem polyOfBits_append_zeros (bits : List Bool) (n : Nat) :
    polyOfBits (bits ++ List.replicate n false) = X ^ n * polyOfBits bits := by
  induction n with
  | zero => simp
  | succ n ih =>
    rw [List.replicate_succ', ← List.append_assoc, polyOfBits_concat, ih, if_neg Bool.false_ne_true]
    ring

/-- The bit that leaves comes back where the generator has a term below x^8. -/
theorem bitsOfByte_crcSerialBit (r : Byte) (b : Bool) :
    bitsOfByte (crcSerialBit r b) =
      [r.getMsbD 1 ^^ r.getMsbD 0, r.getMsbD 2, r.getMsbD 3, r.getMsbD 4,
       r.getMsbD 5, r.getMsbD 6 ^^ r.getMsbD 0, r.getMsbD 7, b ^^ r.getMsbD 0] := by
  revert r b; decide +kernel

/-- A bit into the register is a multiplication by x, taken modulo the generator. -/
theorem polyOfBits_crcSerialBit (r : Byte) (b : Bool) :
    X * polyOfBits (bitsOfByte r) + (if b then 1 else 0) =
      (if r.getMsbD 0 then 1 else 0) * crcGenerator + polyOfBits (bitsOfByte (crcSerialBit r b)) := by
  have hTwo : (2 : (ZMod 2)[X]) = 0 := CharTwo.two_eq_zero
  have hXor (a b : Bool) : (if a ^^ b then 1 else 0 : (ZMod 2)[X]) =
      (if a then 1 else 0) + (if b then 1 else 0) := by
    cases a <;> cases b <;> simp [CharTwo.add_self_eq_zero]
  rw [bitsOfByte_crcSerialBit]
  simp only [polyOfBits, bitsOfByte, List.foldl_cons, List.foldl_nil, hXor, crcGenerator]
  linear_combination -(if r.getMsbD 0 then 1 else 0) * (X ^ 7 + X ^ 2 + 1) * hTwo

/-- The register holds the remainder of the bits that went in. -/
theorem crcGenerator_dvd_sub_register (bits : List Bool) :
    crcGenerator ∣ polyOfBits bits - polyOfBits (bitsOfByte (bits.foldl crcSerialBit 0)) := by
  induction bits using List.reverseRecOn with
  | nil => simp [polyOfBits, bitsOfByte]
  | append_singleton bits b ih =>
    obtain ⟨q, hq⟩ := ih
    rw [polyOfBits_concat, List.foldl_append, List.foldl_cons, List.foldl_nil]
    have hBit := polyOfBits_crcSerialBit (bits.foldl crcSerialBit 0) b
    exact ⟨X * q + if (bits.foldl crcSerialBit 0).getMsbD 0 then 1 else 0,
      by linear_combination X * hq + hBit⟩

/-- Settles O56: the fold is the register that the window and eight zero bits went into. -/
theorem defaultCrcIsThePolynomialRemainder : Obligations.DefaultCrcIsThePolynomialRemainder := by
  intro window
  refine ⟨?_, degree_polyOfBits_lt (bitsOfByte _)⟩
  have hZeros : bitsOfBytes (window ++ [0x00]) = bitsOfBytes window ++ List.replicate 8 false :=
    bitsOfBytes_concat window 0x00
  obtain ⟨q, hq⟩ := crcGenerator_dvd_sub_register (bitsOfBytes (window ++ [0x00]))
  rw [← crcSerial, ← defaultCrcEqualsBitSerialForm, hZeros, polyOfBits_append_zeros,
    sub_eq_iff_eq_add, mul_comm crcGenerator] at hq
  exact ⟨q, hq⟩

end Polynomials

end Machine

end Sys2Proof

/-! PROOFS. The control loop's dispatch (41_dispatch.md): the dispatch of each row of R91 as an equation on
`rx_n`, `FB[0]` and `FB[1]`, then the pseudocode assembled from the rows; what one step does to the replies
and to the frames still open; and the runs, by induction from their steps. -/

namespace Sys2Proof.Machine

/-! ### The meanings of the dropped commands -/

theorem exec_short (bits : List Bool) (s : State) : exec (.short bits) s = drop s := rfl

theorem exec_idResetWrongLength (bits : List Bool) (s : State) :
    exec (.idResetWrongLength bits) s = drop s := rfl

theorem exec_gbreadWrongLength (bits : List Bool) (s : State) :
    exec (.gbreadWrongLength bits) s = drop s := rfl

theorem exec_gbwriteWrongLength (bits : List Bool) (s : State) :
    exec (.gbwriteWrongLength bits) s = drop s := rfl

theorem exec_unrecognised (bits : List Bool) (s : State) : exec (.unrecognised bits) s = drop s := rfl

/-- Settles O23: the meaning of each is `drop`. -/
theorem droppedCommandsOnlyReturnToWait : Obligations.DroppedCommandsOnlyReturnToWait := by
  intro s bits sub b2 t
  simp only [exec_short, exec_idResetWrongLength, exec_gbreadOther, exec_gbreadWrongLength,
    exec_gbwriteWrongLength, exec_unrecognised, drop_eq, and_self]

/-- Settles O11, by `step_of_dispatch`. -/
theorem stepRunsTheDecodedCommand : Obligations.StepRunsTheDecodedCommand :=
  fun _ hValid hPhase => step_of_dispatch hValid hPhase

/-- Settles O8, by `step_of_wait_nil`. -/
theorem waitWithoutFrameKeepsState : Obligations.WaitWithoutFrameKeepsState :=
  fun _ hValid hPhase hQueue => step_of_wait_nil hValid hPhase hQueue

/-! ### The dispatch of each row, read from the buffer -/

section Rows

variable {s : State} (hValid : s.cfg.valid = true) (hPhase : s.phase = .dispatch)
include hValid hPhase

theorem step_of_short (hShort : s.rxN < 9) : step s = drop s := by
  rw [step_of_dispatch hValid hPhase, decode_of_lt_nine (by simpa using hShort), exec_short]

/-- Rows 2 to 4: both opcodes have one meaning, so which of the two it is does not matter (42_id_reset.md
R110 to R112). -/
theorem step_of_ident (h9 : 9 ≤ s.rxN)
    (hOp : s.fb.read 0 = s.cfg.opId ∨ s.fb.read 0 = s.cfg.opReset) :
    step s = if s.rxN = 9 then replyIdent s else drop s := by
  rw [← State.frameByte_frame s (by omega)] at hOp
  rw [step_of_dispatch hValid hPhase, decode_of_ident (by simpa using h9) hOp, State.frame_length]
  split_ifs
  · exact exec_id _ s
  · exact exec_reset _ s
  · exact exec_idResetWrongLength _ s

/-- Rows 5 to 8 (43_gbread.md, ExecGbRead). -/
theorem step_of_gbread (h9 : 9 ≤ s.rxN) (hOp : s.fb.read 0 = s.cfg.opGbRead) :
    step s =
      if s.rxN = 25 then
        if s.fb.read 1 = 0xC0 then replySlot statusSlot s
        else if s.fb.read 1 = 0xF0 then replySlot peripheralSlot s
        else drop s
      else drop s := by
  rw [← State.frameByte_frame s (by omega)] at hOp
  rw [step_of_dispatch hValid hPhase, decode_of_gbread hValid (by simpa using h9) hOp, decodeGbRead,
    State.frame_length]
  by_cases hLength : s.rxN = 25
  · rw [if_pos hLength, if_pos hLength, State.frameByte_frame s (by omega)]
    split_ifs
    · exact exec_gbreadC0 _ _ s
    · exact exec_gbreadF0 _ _ s
    · exact exec_gbreadOther _ _ _ s
  · rw [if_neg hLength, if_neg hLength, exec_gbreadWrongLength]

/-- Rows 9 to 13 (44_gbwrite.md, ExecGbWrite). -/
theorem step_of_gbwrite (h9 : 9 ≤ s.rxN) (hOp : s.fb.read 0 = s.cfg.opGbWrite) :
    step s =
      if s.rxN = 281 then
        if s.fb.read 1 = 0x80 then endTransaction (checksumReply s).clearBuffer
        else if s.fb.read 1 = 0xC0 then
          endTransaction (stageByte (checksumReply s) statusSlot 0x02 statusSlot statusChecksum)
        else if s.fb.read 1 = 0xE0 then
          endTransaction
            (stageByte (checksumReply s) peripheralMarker 0x81 peripheralSlot peripheralChecksum)
        else endTransaction (checksumReply s)
      else drop s := by
  rw [← State.frameByte_frame s (by omega)] at hOp
  rw [step_of_dispatch hValid hPhase, decode_of_gbwrite hValid (by simpa using h9) hOp, decodeGbWrite,
    State.frame_length]
  by_cases hLength : s.rxN = 281
  · rw [if_pos hLength, if_pos hLength, State.frameByte_frame s (by omega)]
    split_ifs
    · exact exec_gbwriteInit _ _ _ s
    · exact exec_gbwriteConfig _ _ _ s
    · exact exec_gbwriteSend _ _ _ s
    · exact exec_gbwriteOther _ _ _ _ s
  · rw [if_neg hLength, if_neg hLength, exec_gbwriteWrongLength]

theorem step_of_unrecognised (h9 : 9 ≤ s.rxN) (hId : s.fb.read 0 ≠ s.cfg.opId)
    (hReset : s.fb.read 0 ≠ s.cfg.opReset) (hRead : s.fb.read 0 ≠ s.cfg.opGbRead)
    (hWrite : s.fb.read 0 ≠ s.cfg.opGbWrite) : step s = drop s := by
  rw [← State.frameByte_frame s (by omega)] at hId hReset hRead hWrite
  rw [step_of_dispatch hValid hPhase,
    decode_of_unrecognised (by simpa using h9) hId hReset hRead hWrite, exec_unrecognised]

end Rows

/-- Settles O24, by `step_of_short`. -/
theorem shortFramesDropped : Obligations.ShortFramesDropped :=
  fun _ hValid hPhase hShort => step_of_short hValid hPhase hShort

/-- Settles O25, by `step_of_unrecognised`. -/
theorem unrecognisedOpcodeDropped : Obligations.UnrecognisedOpcodeDropped :=
  fun _ hValid hPhase h9 hId hReset hRead hWrite =>
    step_of_unrecognised hValid hPhase h9 hId hReset hRead hWrite

/-! ### The spec's pseudocode -/

/-- The common part of GBWRITE as one update: its reply, read back from the byte it stored, is that byte
(44_gbwrite.md R130). -/
theorem checksumReply_eq (s : State) :
    checksumReply s =
      { s with fb := s.fb.write sendChecksum (s.crc8 sendWindow)
               txLog := s.txLog ++ [[s.crc8 sendWindow]] } := by
  rw [← checksumReply_txLog, ← checksumReply_fb]
  rfl

/-- Settles O20: the checks of R91 in their order, and in each row the equation of its dispatch, whose
meanings are the bodies of ExecIdent, ExecGbRead and ExecGbWrite. -/
theorem dispatchEqualsTheSpecsPseudocode : Obligations.DispatchEqualsTheSpecsPseudocode := by
  intro s hValid hPhase
  rw [dispatchPseudocode]
  by_cases hShort : s.rxN < 9
  · rw [if_pos hShort, step_of_short hValid hPhase hShort, drop_eq]
  have h9 : 9 ≤ s.rxN := by omega
  rw [if_neg hShort]
  by_cases hIdent : s.fb.read 0 = s.cfg.opId ∨ s.fb.read 0 = s.cfg.opReset
  · rw [if_pos hIdent, step_of_ident hValid hPhase h9 hIdent, ite_not]
    split_ifs <;> rfl
  rw [if_neg hIdent]
  by_cases hRead : s.fb.read 0 = s.cfg.opGbRead
  · rw [if_pos hRead, step_of_gbread hValid hPhase h9 hRead, ite_not]
    split_ifs <;> rfl
  rw [if_neg hRead]
  by_cases hWrite : s.fb.read 0 = s.cfg.opGbWrite
  · rw [if_pos hWrite, step_of_gbwrite hValid hPhase h9 hWrite, checksumReply_eq, ite_not]
    split_ifs
    · simp only [endTransaction, State.clearBuffer, Memory.clear_eq_writeBytes, State.crc8, sendChecksum,
        sendWindow]
    all_goals rfl
  rw [if_neg hWrite]
  obtain ⟨hId, hReset⟩ := not_or.mp hIdent
  rw [step_of_unrecognised hValid hPhase h9 hId hReset hRead hWrite, drop_eq]

/-! ### One step's replies, and the frames still open -/

theorem State.openFrames_of_dispatch {s : State} (h : s.phase = .dispatch) :
    s.openFrames = s.rxQueue.length + 1 := by
  rw [State.openFrames, if_pos h]

theorem State.openFrames_of_ne_dispatch {s : State} (h : s.phase ≠ .dispatch) :
    s.openFrames = s.rxQueue.length := by
  rw [State.openFrames, if_neg h, Nat.add_zero]

/-- Settles O38: initialisation, the idle wait and a Receive leave the log, and a dispatch runs a command. -/
theorem atMostOneReplyPerStep : Obligations.AtMostOneReplyPerStep := by
  intro s t hStep
  obtain ⟨-, ⟨-, rfl⟩ | ⟨-, -, rfl⟩ | ⟨d, rest, -, -, -, rfl⟩ | ⟨hPhase, hExec⟩⟩ := step_cases hStep
  · exact .inl rfl
  · exact .inl rfl
  · exact .inl rfl
  · exact (exec_txLog hExec).imp_right fun hReply => ⟨hPhase, hReply⟩

/-- From `s` to `t` replies are only appended, each closing a frame that was open in `s`. -/
structure State.RepliesClose (s t : State) : Prop where
  appended : s.txLog <+: t.txLog
  bounded : t.txLog.length + t.openFrames ≤ s.txLog.length + s.openFrames

theorem State.RepliesClose.refl (s : State) : s.RepliesClose s := ⟨List.prefix_rfl, Nat.le_refl _⟩

theorem State.RepliesClose.trans {s t u : State} (h : s.RepliesClose t) (h' : t.RepliesClose u) :
    s.RepliesClose u :=
  ⟨h.appended.trans h'.appended, h'.bounded.trans h.bounded⟩

/-- A Receive moves a frame from the queue into the dispatch, and a dispatch closes its frame with at most
one reply. -/
theorem step_repliesClose {s t : State} (hStep : step s = .next t) : s.RepliesClose t := by
  obtain ⟨-, ⟨hPhase, rfl⟩ | ⟨-, -, rfl⟩ | ⟨d, rest, hPhase, hQueue, -, rfl⟩ | ⟨hPhase, hExec⟩⟩ :=
    step_cases hStep
  · have hBefore := State.openFrames_of_ne_dispatch (s := s) (by simp [hPhase])
    have hAfter := State.openFrames_of_ne_dispatch (s := { s with phase := .wait }) (by simp)
    exact ⟨List.prefix_rfl, by rw [hBefore, hAfter]⟩
  · exact .refl _
  · have hBefore := State.openFrames_of_ne_dispatch (s := s) (by simp [hPhase])
    have hAfter := State.openFrames_of_dispatch (receive_phase { s with rxQueue := rest } d)
    exact ⟨List.prefix_rfl, by simp [hBefore, hAfter, hQueue]⟩
  · obtain ⟨-, hWait, -, hQueue⟩ := exec_frame hExec
    have hBefore := State.openFrames_of_dispatch hPhase
    have hAfter := State.openFrames_of_ne_dispatch (s := t) (by simp [hWait])
    rcases exec_txLog hExec with hSame | ⟨r, -, hReply⟩
    · exact ⟨by rw [hSame], by rw [hBefore, hAfter, hSame, hQueue]; omega⟩
    · refine ⟨hReply ▸ List.prefix_append _ _, ?_⟩
      rw [hBefore, hAfter, hReply, hQueue, List.length_append, List.length_singleton]
      omega

/-! ### Runs -/

/-- A relation that holds across every step, and can be chained, holds across every run. -/
theorem runSteps_induction {R : State → State → Prop} (hRefl : ∀ s, R s s)
    (hStep : ∀ {s t u}, step s = .next t → R t u → R s u) {k : Nat} {s t : State}
    (hRun : runSteps k s = .next t) : R s t := by
  induction k generalizing s with
  | zero =>
    obtain rfl : s = t := by simpa using hRun
    exact hRefl s
  | succ k ih =>
    obtain ⟨u, hFirst, hRest⟩ := step_of_runSteps hRun
    exact hStep hFirst (ih hRest)

/-- Settles O39: each step only closes open frames (`step_repliesClose`), and so does a run of them. -/
theorem repliesNeverOutnumberFrames : Obligations.RepliesNeverOutnumberFrames := by
  intro k s t hRun
  obtain ⟨hAppended, hBounded⟩ := runSteps_induction State.RepliesClose.refl
    (fun hStep hRest => (step_repliesClose hStep).trans hRest) hRun
  exact ⟨hAppended, hBounded⟩

/-- No step adds a Receive to the queue. -/
theorem step_rxQueue_suffix {s t : State} (hStep : step s = .next t) : t.rxQueue <:+ s.rxQueue := by
  rcases phaseAdvancesOnlyAlongTheLoop s t hStep with
    ⟨-, rfl⟩ | ⟨-, -, rfl⟩ | ⟨-, -, d, hQueue, -⟩ | ⟨-, -, hQueue⟩
  · exact List.suffix_rfl
  · exact List.suffix_rfl
  · exact hQueue ▸ List.suffix_cons d _
  · rw [hQueue]

/-- The limit is a constant and no step adds a Receive, so the Transport's contract goes on holding. -/
theorem step_contractKept {s t : State} (h : s.ContractKept) (hStep : step s = .next t) :
    t.ContractKept := by
  intro d hd
  rw [step_cfg hStep]
  exact h d ((step_rxQueue_suffix hStep).subset hd)

/-- Under the Transport's contract an accepted configuration always takes a step: the contract rules out
the one refusal of a Receive, and no command refuses or faults (60_exceptions.md R150). -/
theorem exists_step {s : State} (hValid : s.cfg.valid = true) (hContract : s.ContractKept) :
    ∃ t, step s = .next t := by
  cases hPhase : s.phase with
  | init => exact ⟨_, step_of_init hValid hPhase⟩
  | wait =>
    cases hQueue : s.rxQueue with
    | nil => exact ⟨_, step_of_wait_nil hValid hPhase hQueue⟩
    | cons d rest =>
      have hLimit := hContract d (by simp [hQueue])
      exact ⟨_, step_of_delivery hValid hPhase hQueue hLimit⟩
  | dispatch =>
    obtain ⟨fb, log, hExec, -⟩ := exec_cases (decode s.cfg s.frame) s
    exact ⟨_, (step_of_dispatch hValid hPhase).trans hExec⟩

/-- Settles O6: a step exists (`exists_step`) and keeps the invariant (`invariantKeptByEveryStep`) and the
contract (`step_contractKept`), and so the run goes on from where it leads. -/
theorem runsNeverStop : Obligations.RunsNeverStop := by
  intro k
  induction k with
  | zero => exact fun s hInv hContract => ⟨s, rfl, hInv, hContract⟩
  | succ k ih =>
    intro s hInv hContract
    have hValid : s.cfg.valid = true := hInv.1
    obtain ⟨t, hStep⟩ := exists_step hValid hContract
    rw [runSteps_succ_of_next hStep]
    exact ih t (invariantKeptByEveryStep s t hInv hStep) (step_contractKept hContract hStep)

end Sys2Proof.Machine

/-! PROOFS. RESET and ID (42_id_reset.md): their one meaning, the Identity Record; the lengths at which a
recognised opcode is dropped; and the bytes each command may write, of which RESET and ID have none. -/

namespace Sys2Proof.Machine

/-! ### The Identity Record -/

/-- The meaning of both opcodes as one update: the reply is a constant, and the buffer is not written
(42_id_reset.md R110, R111; 92_eei_decisions.md D12). -/
theorem replyIdent_eq (s : State) :
    replyIdent s = .next { s with phase := .wait, txLog := s.txLog ++ [[0x00, 0x03, 0x00]] } := rfl

/-- Settles O28: both meanings are `replyIdent`. -/
theorem identCommandsReplyTheRecord : Obligations.IdentCommandsReplyTheRecord := by
  intro s t
  rw [exec_id, exec_reset, replyIdent_eq]
  exact ⟨rfl, rfl⟩

/-- Settles O29: rows 2 and 3 of the dispatch at their own length. -/
theorem resetAndIdAnswerIdentity : Obligations.ResetAndIdAnswerIdentity := by
  intro s hValid hPhase hLength hOp
  rw [step_of_ident hValid hPhase hLength.ge hOp, if_pos hLength, replyIdent_eq]

/-! ### Recognised opcodes at a wrong length -/

/-- Settles O26: each opcode's rows drop every length but their own. -/
theorem wrongLengthDropped : Obligations.WrongLengthDropped := by
  rintro s hValid hPhase h9 (⟨hIdent, hLength⟩ | ⟨hRead, hLength⟩ | ⟨hWrite, hLength⟩)
  · rw [step_of_ident hValid hPhase h9 hIdent, if_neg hLength, drop_eq]
  · rw [step_of_gbread hValid hPhase h9 hRead, if_neg hLength, drop_eq]
  · rw [step_of_gbwrite hValid hPhase h9 hWrite, if_neg hLength, drop_eq]

/-! ### The bytes that a command may write -/

theorem checksumReply_read_of_ne (s : State) {a : Nat} (h : a ≠ sendChecksum) :
    (checksumReply s).fb.read a = s.fb.read a := by
  rw [checksumReply_fb, Memory.read_write_of_ne _ _ h]

theorem stageByte_read_of_ne (s : State) {a marked checksum : Nat} (v : Byte) (slot : Nat)
    (hMarked : a ≠ marked) (hChecksum : a ≠ checksum) :
    (stageByte s marked v slot checksum).fb.read a = s.fb.read a := by
  rw [stageByte_fb, Memory.read_write_of_ne _ _ hChecksum, Memory.read_write_of_ne _ _ hMarked]

/-- Both staging commands at once: Configuration and Data send differ only in the slot and its byte. -/
theorem stageByte_checksumReply_read_of_ne (s : State) {a marked checksum : Nat} (v : Byte)
    (slot : Nat) (h : ¬(a = sendChecksum ∨ a = marked ∨ a = checksum)) :
    (stageByte (checksumReply s) marked v slot checksum).fb.read a = s.fb.read a := by
  obtain ⟨hSend, hMarked, hChecksum⟩ : a ≠ sendChecksum ∧ a ≠ marked ∧ a ≠ checksum := by
    simpa only [not_or] using h
  rw [stageByte_read_of_ne _ v slot hMarked hChecksum, checksumReply_read_of_ne s hSend]

theorem clearBuffer_read_of_le (s : State) {a : Nat} (h : bufferBytes ≤ a) :
    s.clearBuffer.fb.read a = s.fb.read a := by
  rw [State.clearBuffer_fb, Memory.read_clear, if_neg (by omega)]

/-- The bytes a command's meaning writes, beside `commandReads`: Initialization the whole buffer, another
GBWRITE the send window's checksum and the marked byte and checksum of the slot it stages (44_gbwrite.md
R130 to R134). `exec_read_of_not_writes` proves that no other byte changes. -/
def commandWrites : Instr → Nat → Prop
  | .gbwriteInit _ _ _, a => a < bufferBytes
  | .gbwriteConfig _ _ _, a => a = sendChecksum ∨ a = statusSlot ∨ a = statusChecksum
  | .gbwriteSend _ _ _, a => a = sendChecksum ∨ a = peripheralMarker ∨ a = peripheralChecksum
  | .gbwriteOther _ _ _ _, a => a = sendChecksum
  | _, _ => False

/-- The frame of a command's writes: RESET, ID, the two GBREADs and the drops leave the buffer as it is, and
a GBWRITE writes by `checksumReply`, `stageByte` and `clearBuffer` alone. -/
theorem exec_read_of_not_writes {i : Instr} {s t : State} {a : Nat} (hExec : exec i s = .next t)
    (hWrites : ¬commandWrites i a) : t.fb.read a = s.fb.read a := by
  cases i with
  | short | id | reset | idResetWrongLength | gbreadC0 | gbreadF0 | gbreadOther | gbreadWrongLength
  | gbwriteWrongLength | unrecognised =>
    cases hExec
    rfl
  | gbwriteInit =>
    rw [exec_gbwriteInit, endTransaction_eq] at hExec
    have hOutside : bufferBytes ≤ a := Nat.le_of_not_lt hWrites
    have hNe : a ≠ sendChecksum := by rintro rfl; exact absurd hOutside (by decide)
    rw [hExec, clearBuffer_read_of_le _ hOutside, checksumReply_read_of_ne s hNe]
  | gbwriteConfig =>
    rw [exec_gbwriteConfig, endTransaction_eq] at hExec
    rw [hExec, stageByte_checksumReply_read_of_ne s _ _ hWrites]
  | gbwriteSend =>
    rw [exec_gbwriteSend, endTransaction_eq] at hExec
    rw [hExec, stageByte_checksumReply_read_of_ne s _ _ hWrites]
  | gbwriteOther =>
    rw [exec_gbwriteOther, endTransaction_eq] at hExec
    rw [hExec, checksumReply_read_of_ne s hWrites]

/-- Settles O37: a byte that changed is one the command writes (`exec_read_of_not_writes`), and only the
four GBWRITEs write any. -/
theorem commandsWriteOnlyTheirBytes : Obligations.CommandsWriteOnlyTheirBytes := by
  intro i s t a hExec hChanged
  have hWrites : commandWrites i a :=
    by_contra fun hNot => hChanged (exec_read_of_not_writes hExec hNot)
  cases i with
  | gbwriteInit b2 d tb => exact .inl ⟨b2, d, tb, rfl, hWrites⟩
  | gbwriteConfig b2 d tb => exact .inr (.inl ⟨b2, d, tb, rfl, hWrites⟩)
  | gbwriteSend b2 d tb => exact .inr (.inr (.inl ⟨b2, d, tb, rfl, hWrites⟩))
  | gbwriteOther sub b2 d tb => exact .inr (.inr (.inr ⟨sub, b2, d, tb, rfl, hWrites⟩))
  | _ => exact hWrites.elim

end Sys2Proof.Machine

/-! PROOFS. GBREAD (43_gbread.md): its one reply, a slot as it stands, and the dispatch of a frame of its own
length by sub-opcode. -/

namespace Sys2Proof.Machine

/-- The meaning of both commands as one update: the reply is the slot's bytes one by one, no checksum of
them taken or compared, and the buffer is not written (43_gbread.md R124). -/
theorem replySlot_eq (slot : Nat) (s : State) :
    replySlot slot s = .next { s with
      phase := .wait, txLog := s.txLog ++ [(List.range slotBytes).map fun i => s.fb.read (slot + i)] } :=
  rfl

/-- Settles O30: the two meanings are `replySlot` at 0x30 and at 0x51. -/
theorem gbReadCommandsReplyTheirSlot : Obligations.GbReadCommandsReplyTheirSlot := by
  intro s b2 t
  constructor
  · rw [exec_gbreadC0, replySlot_eq, statusSlot, slotBytes]
  · rw [exec_gbreadF0, replySlot_eq, peripheralSlot, slotBytes]

/-- Rows 5 to 7: at its own length a GBREAD is told apart by its sub-opcode alone (43_gbread.md R120 to R122). -/
theorem step_of_gbread_25 {s : State} (hValid : s.cfg.valid = true) (hPhase : s.phase = .dispatch)
    (hLength : s.rxN = 25) (hOp : s.fb.read 0 = s.cfg.opGbRead) :
    step s =
      if s.fb.read 1 = 0xC0 then replySlot statusSlot s
      else if s.fb.read 1 = 0xF0 then replySlot peripheralSlot s
      else drop s := by
  rw [step_of_gbread hValid hPhase (by omega) hOp, if_pos hLength]

/-- Settles O31: the two sub-opcodes differ, so each reaches its own slot. -/
theorem gbReadAnswersTheSlot : Obligations.GbReadAnswersTheSlot := by
  intro s hValid hPhase hLength hOp
  rw [step_of_gbread_25 hValid hPhase hLength hOp]
  constructor
  · intro hStatus
    rw [if_pos hStatus, replySlot_eq, statusSlot, slotBytes]
  · intro hPeripheral
    have hNotStatus : s.fb.read 1 ≠ 0xC0 := by rw [hPeripheral]; decide
    rw [if_neg hNotStatus, if_pos hPeripheral, replySlot_eq, peripheralSlot, slotBytes]

/-- Settles O27: past both sub-opcodes only the drop is left. -/
theorem gbReadOtherSubOpcodeDropped : Obligations.GbReadOtherSubOpcodeDropped := by
  intro s hValid hPhase hLength hOp hNotStatus hNotPeripheral
  rw [step_of_gbread_25 hValid hPhase hLength hOp, if_neg hNotStatus, if_neg hNotPeripheral, drop_eq]

end Sys2Proof.Machine

/-! PROOFS. GBWRITE (44_gbwrite.md): the dispatch of a frame of its own length by sub-opcode; the two
sub-commands that stage a slot, as one; the payload of a delivered GBWRITE in the send window; and a staging
command followed by the GBREAD of its slot. -/

namespace Sys2Proof.Machine

/-! ### Windows of the buffer -/

/-- A window, cut at its byte `k`. -/
theorem Memory.readBytes_split (m : Memory) (a k n : Nat) :
    m.readBytes a (k + (n + 1)) = m.readBytes a k ++ m.read (a + k) :: m.readBytes (a + k + 1) n := by
  simp only [readBytes, List.range_add, List.range_succ_eq_map, List.map_append, List.map_cons,
    List.map_map, Nat.add_zero]
  congr 2
  exact List.map_congr_left fun i _ => congrArg m.read (by simp only [Function.comp]; omega)

theorem Memory.readBytes_getD (m : Memory) (a : Nat) {n i : Nat} (hi : i < n) (v : Byte) :
    (m.readBytes a n).getD i v = m.read (a + i) := by
  rw [List.getD_eq_getElem _ _ (by simpa using hi), readBytes_getElem]

/-- The first bytes of a window are the shorter window. -/
theorem Memory.readBytes_take (m : Memory) (a : Nat) {k n : Nat} (hk : k ≤ n) :
    (m.readBytes a n).take k = m.readBytes a k := by
  rw [readBytes, readBytes, ← List.map_take, List.take_range, Nat.min_eq_left hk]

/-! ### Dispatch by sub-opcode -/

/-- Rows 9 to 12: at its own length a GBWRITE is told apart by its sub-opcode alone (44_gbwrite.md R131 to
R134). -/
theorem step_of_gbwrite_281 {s : State} (hValid : s.cfg.valid = true) (hPhase : s.phase = .dispatch)
    (hLength : s.rxN = 281) (hOp : s.fb.read 0 = s.cfg.opGbWrite) :
    step s =
      if s.fb.read 1 = 0x80 then endTransaction (checksumReply s).clearBuffer
      else if s.fb.read 1 = 0xC0 then
        endTransaction (stageByte (checksumReply s) statusSlot 0x02 statusSlot statusChecksum)
      else if s.fb.read 1 = 0xE0 then
        endTransaction (stageByte (checksumReply s) peripheralMarker 0x81 peripheralSlot peripheralChecksum)
      else endTransaction (checksumReply s) := by
  rw [step_of_gbwrite hValid hPhase (by omega) hOp, if_pos hLength]

/-! ### Another sub-opcode, and Initialization -/

/-- Settles O33: the meaning is the common part alone, whose one write is the checksum. -/
theorem gbWriteOtherStoresOnlyTheChecksum : Obligations.GbWriteOtherStoresOnlyTheChecksum := by
  intro s sub b2 d tb
  refine ⟨{ checksumReply s with phase := .wait }, rfl, rfl, rfl, rfl, rfl, checksumReply_txLog s, ?_,
    fun hValid hPhase hLength hOp hInit hConfig hSend => ?_, fun a => checksumReply_read_of_ne s⟩
  · exact Memory.read_write_self s.fb sendChecksum _
  · rw [step_of_gbwrite_281 hValid hPhase hLength hOp, if_neg hInit, if_neg hConfig, if_neg hSend,
      endTransaction]

/-- Settles O34: the reply is latched in the common part, and the clear comes after it; the common part's
own write is inside the 128 bytes (`exec_read_of_not_writes`). -/
theorem initializationClearsTheBuffer : Obligations.InitializationClearsTheBuffer := by
  intro s b2 d tb
  have hExec : exec (.gbwriteInit b2 d tb) s = .next { (checksumReply s).clearBuffer with phase := .wait } :=
    exec_gbwriteInit b2 d tb s
  refine ⟨_, hExec, rfl, rfl, rfl, rfl, checksumReply_txLog s, fun a ha => ?_,
    fun hValid hPhase hLength hOp hSub => ?_, fun a ha => ?_⟩
  · exact (Memory.read_clear _ a).trans (if_pos ha)
  · rw [step_of_gbwrite_281 hValid hPhase hLength hOp, if_pos hSub, endTransaction]
  · exact exec_read_of_not_writes hExec (Nat.not_lt.mpr ha)

/-! ### The commands that stage a slot -/

/-- The meaning of `i` is the common part of GBWRITE, then the byte `v` at place `k` of the payload of the
slot at `slot` and the slot's checksum just past the payload; the slot lies beyond the send window and its
checksum. -/
structure StagesSlot (slot k : Nat) (v : Byte) (i : Instr) : Prop where
  beyondSend : sendChecksum < slot
  inPayload : k < 32
  exec_eq : ∀ s, exec i s =
    endTransaction (stageByte (checksumReply s) (slot + k) v slot (slot + 32))

theorem gbwriteConfig_stagesSlot (b2 : Byte) (d : List Byte) (t : Bool) :
    StagesSlot statusSlot 0 0x02 (.gbwriteConfig b2 d t) :=
  ⟨by decide, by decide, exec_gbwriteConfig b2 d t⟩

theorem gbwriteSend_stagesSlot (b2 : Byte) (d : List Byte) (t : Bool) :
    StagesSlot peripheralSlot 8 0x81 (.gbwriteSend b2 d t) :=
  ⟨by decide, by decide, exec_gbwriteSend b2 d t⟩

namespace StagesSlot

variable {slot k : Nat} {v : Byte} {i : Instr} {s t : State}

theorem exists_exec (h : StagesSlot slot k v i) (s : State) : ∃ t, exec i s = .next t :=
  ⟨_, h.exec_eq s⟩

theorem fb_eq (h : StagesSlot slot k v i) (hExec : exec i s = .next t) :
    t.fb = (stageByte (checksumReply s) (slot + k) v slot (slot + 32)).fb := by
  rw [h.exec_eq, endTransaction_eq] at hExec
  rw [hExec]

theorem txLog_eq (h : StagesSlot slot k v i) (hExec : exec i s = .next t) :
    t.txLog = s.txLog ++ [[s.crc8 sendWindow]] := by
  rw [h.exec_eq, endTransaction_eq] at hExec
  rw [hExec, stageByte_txLog, checksumReply_txLog]

theorem read_of_ne (h : StagesSlot slot k v i) (hExec : exec i s = .next t) {a : Nat}
    (hSend : a ≠ sendChecksum) (hMarked : a ≠ slot + k) (hChecksum : a ≠ slot + 32) :
    t.fb.read a = s.fb.read a := by
  rw [h.fb_eq hExec, stageByte_read_of_ne _ v slot hMarked hChecksum, checksumReply_read_of_ne s hSend]

/-- The staging lies beyond the checksum of the common part and leaves it. -/
theorem read_sendChecksum (h : StagesSlot slot k v i) (hExec : exec i s = .next t) :
    t.fb.read sendChecksum = s.crc8 sendWindow := by
  have hBeyond := h.beyondSend
  rw [h.fb_eq hExec, stageByte_read_of_ne _ v slot (by omega) (by omega), checksumReply_fb,
    Memory.read_write_self]

theorem read_marked (h : StagesSlot slot k v i) (hExec : exec i s = .next t) :
    t.fb.read (slot + k) = v := by
  have hPayload := h.inPayload
  rw [h.fb_eq hExec, stageByte_fb, Memory.read_write_of_ne _ _ (by omega), Memory.read_write_self]

/-- Of the slot's payload, the marked byte alone is written. -/
theorem payload_eq (h : StagesSlot slot k v i) (hExec : exec i s = .next t) :
    t.fb.readBytes slot 32 = s.fb.readBytes slot k ++ v :: s.fb.readBytes (slot + k + 1) (31 - k) := by
  have hBeyond := h.beyondSend
  have hPayload := h.inPayload
  have hBefore : t.fb.readBytes slot k = s.fb.readBytes slot k :=
    Memory.readBytes_congr fun n hn => h.read_of_ne hExec (by omega) (by omega) (by omega)
  have hAfter : t.fb.readBytes (slot + k + 1) (31 - k) = s.fb.readBytes (slot + k + 1) (31 - k) :=
    Memory.readBytes_congr fun n hn => h.read_of_ne hExec (by omega) (by omega) (by omega)
  calc t.fb.readBytes slot 32
      = t.fb.readBytes slot (k + (31 - k + 1)) := by rw [show k + (31 - k + 1) = 32 by omega]
    _ = s.fb.readBytes slot k ++ v :: s.fb.readBytes (slot + k + 1) (31 - k) := by
      rw [Memory.readBytes_split, hBefore, hAfter, h.read_marked hExec]

/-- The slot is left with the checksum of its own payload: the checksum is taken after the mark, and
written past the payload. -/
theorem read_checksum (h : StagesSlot slot k v i) (hExec : exec i s = .next t) :
    t.fb.read (slot + 32) = t.crc8 slot := by
  obtain ⟨hCfg, -, -, -⟩ := exec_frame hExec
  rw [h.fb_eq hExec, stageByte_fb, Memory.read_write_self]
  refine State.crc8_congr hCfg.symm fun n hn => ?_
  rw [h.fb_eq hExec, stageByte_fb, Memory.read_write_of_ne _ _ (by omega)]
  rfl

theorem read_checksum_eq (h : StagesSlot slot k v i) (hExec : exec i s = .next t) :
    t.fb.read (slot + 32) =
      crcFold s.cfg (s.fb.readBytes slot k ++ v :: s.fb.readBytes (slot + k + 1) (31 - k)) := by
  obtain ⟨hCfg, -, -, -⟩ := exec_frame hExec
  rw [h.read_checksum hExec, State.crc8, hCfg, h.payload_eq hExec]

/-- A second staging finds the mark in place, so it takes the checksum of the same payload (44_gbwrite.md
R132, R133). -/
theorem read_again {j : Instr} {u : State} (h : StagesSlot slot k v i) (hExec : exec i s = .next t)
    (h' : StagesSlot slot k v j) (hAgain : exec j t = .next u) {a : Nat} (ha : slot ≤ a) :
    u.fb.read a = t.fb.read a := by
  have hBeyond := h.beyondSend
  have hPayload {b : Nat} (hb : slot ≤ b) (hb' : b ≠ slot + 32) : u.fb.read b = t.fb.read b := by
    by_cases hMarked : b = slot + k
    · rw [hMarked, h'.read_marked hAgain, h.read_marked hExec]
    · exact h'.read_of_ne hAgain (by omega) hMarked hb'
  by_cases hChecksum : a = slot + 32
  · obtain ⟨hCfg, -, -, -⟩ := exec_frame hAgain
    rw [hChecksum, h'.read_checksum hAgain, h.read_checksum hExec]
    exact State.crc8_congr hCfg fun n hn => hPayload (by omega) (by omega)
  · exact hPayload ha hChecksum

end StagesSlot

/-- Settles O35: Configuration stages byte 0 of the status slot. -/
theorem configurationStagesTheStatus : Obligations.ConfigurationStagesTheStatus := by
  intro s b2 d tb
  have hStages := gbwriteConfig_stagesSlot b2 d tb
  obtain ⟨t, hExec⟩ := hStages.exists_exec s
  obtain ⟨hCfg, hWait, hRxN, hQueue⟩ := exec_frame hExec
  refine ⟨t, hExec, hWait, hCfg, hRxN, hQueue, hStages.txLog_eq hExec, hStages.read_sendChecksum hExec,
    hStages.read_marked hExec, hStages.read_checksum_eq hExec, fun a => hStages.read_of_ne hExec,
    fun hValid hPhase hLength hOp hSub => ?_, fun b2' d' tb' u hAgain a ha _ => ?_⟩
  · have hNotInit : s.fb.read 1 ≠ 0x80 := by rw [hSub]; decide
    rw [step_of_gbwrite_281 hValid hPhase hLength hOp, if_neg hNotInit, if_pos hSub, ← hExec,
      exec_gbwriteConfig]
  · exact hStages.read_again hExec (gbwriteConfig_stagesSlot b2' d' tb') hAgain ha

/-- Settles O36: Data send stages byte 8 of the peripheral slot. -/
theorem dataSendStagesTheMarker : Obligations.DataSendStagesTheMarker := by
  intro s b2 d tb
  have hStages := gbwriteSend_stagesSlot b2 d tb
  obtain ⟨t, hExec⟩ := hStages.exists_exec s
  obtain ⟨hCfg, hWait, hRxN, hQueue⟩ := exec_frame hExec
  refine ⟨t, hExec, hWait, hCfg, hRxN, hQueue, hStages.txLog_eq hExec, hStages.read_sendChecksum hExec,
    hStages.read_marked hExec, hStages.read_checksum_eq hExec, fun a => hStages.read_of_ne hExec,
    fun hValid hPhase hLength hOp hSub => ?_, fun b2' d' tb' u hAgain a ha _ => ?_⟩
  · have hNotInit : s.fb.read 1 ≠ 0x80 := by rw [hSub]; decide
    have hNotConfig : s.fb.read 1 ≠ 0xC0 := by rw [hSub]; decide
    rw [step_of_gbwrite_281 hValid hPhase hLength hOp, if_neg hNotInit, if_neg hNotConfig, if_pos hSub,
      ← hExec, exec_gbwriteSend]
  · exact hStages.read_again hExec (gbwriteSend_stagesSlot b2' d' tb') hAgain ha

/-- Settles O32: the four sub-opcodes in turn, each by its own statement, which holds for any operands
of the command, since no meaning uses them. -/
theorem everyGbWriteAnswersItsChecksum : Obligations.EveryGbWriteAnswersItsChecksum := by
  intro s hValid hPhase hLength hOp
  by_cases hInit : s.fb.read 1 = 0x80
  · obtain ⟨t, -, hWait, -, -, -, hLog, -, hStep, -⟩ := initializationClearsTheBuffer s 0 [] false
    exact ⟨t, hStep hValid hPhase hLength hOp hInit, hWait, hLog, fun hNot => absurd hInit hNot⟩
  by_cases hConfig : s.fb.read 1 = 0xC0
  · obtain ⟨t, -, hWait, -, -, -, hLog, hStored, -, -, -, hStep, -⟩ :=
      configurationStagesTheStatus s 0 [] false
    exact ⟨t, hStep hValid hPhase hLength hOp hConfig, hWait, hLog, fun _ => hStored⟩
  by_cases hSend : s.fb.read 1 = 0xE0
  · obtain ⟨t, -, hWait, -, -, -, hLog, hStored, -, -, -, hStep, -⟩ :=
      dataSendStagesTheMarker s 0 [] false
    exact ⟨t, hStep hValid hPhase hLength hOp hSend, hWait, hLog, fun _ => hStored⟩
  · obtain ⟨t, -, hWait, -, -, -, hLog, hStored, hStep, -⟩ :=
      gbWriteOtherStoresOnlyTheChecksum s (s.fb.read 1) 0 [] false
    exact ⟨t, hStep hValid hPhase hLength hOp hInit hConfig hSend, hWait, hLog, fun _ => hStored⟩

/-! ### A delivered GBWRITE -/

/-- A received GBWRITE's payload lies in the send window (20_memory.md R44; 30_encoding.md R64). -/
theorem readBytes_sendWindow {s : State} (hLength : 280 ≤ s.rxN) :
    s.fb.readBytes sendWindow 32 = framePayload s.frame :=
  List.map_congr_left fun i hi => by
    have hi32 := List.mem_range.mp hi
    rw [State.frameByte_frame s (by omega), sendWindow]

section Delivered

variable {d : List Byte} (hd : d.length = 32) (s : State) (c : Config) (sub b2 : Byte) (tb : Bool)
  (fill : Byte)
include hd

theorem receive_gbwriteFrame_rxN : (receive s ⟨gbwriteFrame c sub b2 d tb, fill⟩).rxN = 281 := by
  rw [receive_rxN, gbwriteFrame_length, hd]

theorem receive_gbwriteFrame_opcode :
    (receive s ⟨gbwriteFrame c sub b2 d tb, fill⟩).fb.read 0 = c.opGbWrite := by
  have hLength := receive_gbwriteFrame_rxN hd s c sub b2 tb fill
  rw [← State.frameByte_frame _ (by omega), receive_frame]
  exact frameByte_encodeFrame (by simp) tb

/-- The checksum of a delivered GBWRITE is its payload's, whatever byte 2, trailing bit and draw. -/
theorem receive_gbwriteFrame_crc8 :
    (receive s ⟨gbwriteFrame c sub b2 d tb, fill⟩).crc8 sendWindow = crcFold s.cfg d := by
  have hLength := receive_gbwriteFrame_rxN hd s c sub b2 tb fill
  rw [State.crc8, receive_cfg, readBytes_sendWindow (by omega), receive_frame,
    framePayload_gbwriteFrame hd]

end Delivered

/-- Settles O42: the Receive leaves a GBWRITE of 281 bits whose send window is the payload, and every such
GBWRITE answers its checksum (`everyGbWriteAnswersItsChecksum`). -/
theorem deliveredGbWriteAnswersThePayloadChecksum :
    Obligations.DeliveredGbWriteAnswersThePayloadChecksum := by
  intro s sub b2 d tb fill rest hValid hPhase hd hQueue
  have hLimit : (gbwriteFrame s.cfg sub b2 d tb).length ≤ s.cfg.maxRxBits := by
    rw [gbwriteFrame_length, hd]
    exact Laws.EncodedLength.bits_received hValid
  obtain ⟨t, hStep, -, hLog, -⟩ := everyGbWriteAnswersItsChecksum
    (receive { s with rxQueue := rest } ⟨gbwriteFrame s.cfg sub b2 d tb, fill⟩) hValid
    (receive_phase _ _) (receive_gbwriteFrame_rxN hd _ _ sub b2 tb fill)
    (receive_gbwriteFrame_opcode hd _ _ sub b2 tb fill)
  refine ⟨t, (transaction_of_next (step_of_delivery hValid hPhase hQueue hLimit)).trans hStep, ?_⟩
  have hCrc := receive_gbwriteFrame_crc8 hd { s with rxQueue := rest } s.cfg sub b2 tb fill
  exact hLog.trans (congrArg (fun b => s.txLog ++ [[b]]) hCrc)

/-! ### A staging command, then the GBREAD of its slot -/

/-- Two steps of a run take a delivered command through its Receive and its dispatch. -/
theorem runSteps_of_delivered {s t : State} {i : Instr} {fill : Byte} {rest : List Delivery}
    (hValid : s.cfg.valid = true) (hPhase : s.phase = .wait) (hWf : i.wellFormed s.cfg = true)
    (hQueue : s.rxQueue = ⟨encode s.cfg i, fill⟩ :: rest)
    (hExec : exec i (receive { s with rxQueue := rest } ⟨encode s.cfg i, fill⟩) = .next t) (n : Nat) :
    runSteps (n + 2) s = runSteps n t := by
  obtain ⟨-, hLimit⟩ := encode_length hValid hWf
  have hReceive := step_of_delivery hValid hPhase hQueue hLimit
  have hDispatch := step_receive (s := { s with rxQueue := rest }) hValid ⟨encode s.cfg i, fill⟩
  rw [decode_encode hValid hWf, hExec] at hDispatch
  rw [runSteps_succ_of_next hReceive, runSteps_succ_of_next hDispatch]

/-- `i` is a GBREAD whose meaning is to reply the slot at `slot` as it stands. -/
structure ReadsSlot (slot : Nat) (i : Instr) : Prop where
  wellFormed : ∀ c, i.wellFormed c = true
  frameLength : i.frameLength = 25
  exec_eq : ∀ s, exec i s = replySlot slot s

theorem gbreadC0_readsSlot (b2 : Byte) (t : Bool) : ReadsSlot statusSlot (.gbreadC0 b2 t) :=
  ⟨fun _ => rfl, rfl, exec_gbreadC0 b2 t⟩

theorem gbreadF0_readsSlot (b2 : Byte) (t : Bool) : ReadsSlot peripheralSlot (.gbreadF0 b2 t) :=
  ⟨fun _ => rfl, rfl, exec_gbreadF0 b2 t⟩

/-- A Receive leaves a window that lies beyond its frame (20_memory.md R50; 92_eei_decisions.md D7). -/
theorem receive_readBytes_beyond (s : State) (d : Delivery) {a : Nat} (ha : bytesReached d.bits.length ≤ a)
    (n : Nat) : (receive s d).fb.readBytes a n = s.fb.readBytes a n :=
  Memory.readBytes_congr fun i _ => receive_read_beyond s d (by omega)

/-- A delivered GBREAD replies the slot as it stood before the delivery: its 25 bits reach four bytes. -/
theorem ReadsSlot.runSteps_two {slot : Nat} {i : Instr} (hReads : ReadsSlot slot i) (hSlot : 4 ≤ slot)
    {s : State} {fill : Byte} {rest : List Delivery} (hValid : s.cfg.valid = true) (hPhase : s.phase = .wait)
    (hQueue : s.rxQueue = ⟨encode s.cfg i, fill⟩ :: rest) :
    ∃ t, runSteps 2 s = .next t ∧ t.txLog = s.txLog ++ [s.fb.readBytes slot 33] ∧ t.rxQueue = rest := by
  have hWf := hReads.wellFormed s.cfg
  obtain ⟨hLength, -⟩ := encode_length hValid hWf
  have hUntouched := receive_readBytes_beyond { s with rxQueue := rest } ⟨encode s.cfg i, fill⟩
    (a := slot) (by rw [hLength, hReads.frameLength, bytesReached]; omega) 33
  have hExec := (hReads.exec_eq _).trans
    (replySlot_eq slot (receive { s with rxQueue := rest } ⟨encode s.cfg i, fill⟩))
  exact ⟨_, runSteps_of_delivered hValid hPhase hWf hQueue hExec 0,
    congrArg (fun reply => s.txLog ++ [reply]) hUntouched, rfl⟩

/-- The two commands of W5 and of W6 (95_test_vectors.md), as one: the GBWRITE's reply is its payload's
checksum, and the GBREAD finds the staged slot as the GBWRITE left it, marked and with its own checksum. -/
theorem StagesSlot.then_gbread {slot k : Nat} {v sub b2 f f' : Byte} {w r : Instr} {d : List Byte}
    {tb : Bool} {s : State} {rest : List Delivery} (hStages : StagesSlot slot k v w)
    (hReads : ReadsSlot slot r) (hFrame : encode s.cfg w = gbwriteFrame s.cfg sub b2 d tb)
    (hWf : w.wellFormed s.cfg = true) (hValid : s.cfg.valid = true) (hPhase : s.phase = .wait)
    (hd : d.length = 32) (hQueue : s.rxQueue = ⟨encode s.cfg w, f⟩ :: ⟨encode s.cfg r, f'⟩ :: rest) :
    ∃ t reply, runSteps 4 s = .next t ∧ t.txLog = s.txLog ++ [[crcFold s.cfg d], reply] ∧
      t.rxQueue = rest ∧ reply.length = 33 ∧ reply.getD k 0 = v ∧
      reply.getD 32 0 = crcFold s.cfg (reply.take 32) := by
  have hPayload := hStages.inPayload
  obtain ⟨t, hExec⟩ := hStages.exists_exec
    (receive { s with rxQueue := ⟨encode s.cfg r, f'⟩ :: rest } ⟨encode s.cfg w, f⟩)
  obtain ⟨hCfg, hWait, -, hRest⟩ := exec_frame hExec
  rw [receive_cfg] at hCfg
  rw [receive_rxQueue] at hRest
  have hLog : t.txLog = s.txLog ++ [[crcFold s.cfg d]] := by
    rw [hStages.txLog_eq hExec, hFrame, receive_gbwriteFrame_crc8 hd, receive_txLog]
  have hChecks : t.fb.read (slot + 32) = crcFold s.cfg (t.fb.readBytes slot 32) := by
    rw [hStages.read_checksum hExec, State.crc8, hCfg]
  obtain ⟨u, hRead, hReply, hQueue'⟩ := hReads.runSteps_two
    (le_trans (by decide) hStages.beyondSend) (hCfg ▸ hValid) hWait (hCfg ▸ hRest)
  refine ⟨u, t.fb.readBytes slot 33,
    (runSteps_of_delivered hValid hPhase hWf hQueue hExec 2).trans hRead, ?_, hQueue',
    Memory.readBytes_length _ _ _, ?_, ?_⟩
  · rw [hReply, hLog, List.append_assoc, List.singleton_append]
  · rw [Memory.readBytes_getD _ _ (by omega), hStages.read_marked hExec]
  · rw [Memory.readBytes_getD _ _ (by decide), Memory.readBytes_take _ _ (by decide), hChecks]

/-- Settles O43: GBREAD C0 reads the slot that Configuration stages. -/
theorem configurationThenStatusRead : Obligations.ConfigurationThenStatusRead := by
  intro s b2 b2' d tb tb' f f' rest hValid hPhase hd hQueue
  exact (gbwriteConfig_stagesSlot b2 d tb).then_gbread (gbreadC0_readsSlot b2' tb') rfl
    (beq_iff_eq.mpr hd) hValid hPhase hd hQueue

/-- Settles O44: GBREAD F0 reads the slot that Data send stages. -/
theorem dataSendThenPeripheralRead : Obligations.DataSendThenPeripheralRead := by
  intro s b2 b2' d tb tb' f f' rest hValid hPhase hd hQueue
  exact (gbwriteSend_stagesSlot b2 d tb).then_gbread (gbreadF0_readsSlot b2' tb') rfl
    (beq_iff_eq.mpr hd) hValid hPhase hd hQueue

end Sys2Proof.Machine

/-! PROOFS. Reset and its hazards (70_reset_and_hazards.md): what hardware initialisation does to the block;
Initialization, delivered over any buffer; and a frame long enough to reach a slot, dropped, but found there
by the next GBREAD. -/

namespace Sys2Proof.Machine

/-- Settles O7, by `step_of_init`. -/
theorem hardwareInitialisationEntersWait : Obligations.HardwareInitialisationEntersWait :=
  fun _ hValid hPhase => step_of_init hValid hPhase

/-! ### Initialization, delivered over any buffer -/

/-- The transaction of a delivered command is the command's meaning in the state its Receive leaves. -/
theorem transaction_of_delivered {s : State} {i : Instr} {fill : Byte} {rest : List Delivery}
    (hValid : s.cfg.valid = true) (hPhase : s.phase = .wait) (hWf : i.wellFormed s.cfg = true)
    (hQueue : s.rxQueue = ⟨encode s.cfg i, fill⟩ :: rest) :
    transaction s = exec i (receive { s with rxQueue := rest } ⟨encode s.cfg i, fill⟩) := by
  obtain ⟨-, hLimit⟩ := encode_length hValid hWf
  have hDispatch := step_receive (s := { s with rxQueue := rest }) hValid ⟨encode s.cfg i, fill⟩
  rw [decode_encode hValid hWf] at hDispatch
  rw [transaction_of_next (step_of_delivery hValid hPhase hQueue hLimit), hDispatch]

/-- Settles O41: the dispatch runs Initialization over the buffer that the Receive left, whose send window
is the payload, and what that buffer held besides makes no difference to a clear of all its bytes
(`initializationClearsTheBuffer`). -/
theorem deliveredInitializationClearsAnyBuffer : Obligations.DeliveredInitializationClearsAnyBuffer := by
  intro s b2 d tb fill rest hValid hPhase hd hQueue
  obtain ⟨t, hExec, hWait, -, -, hRest, hLog, hZero, -⟩ := initializationClearsTheBuffer
    (receive { s with rxQueue := rest } ⟨encode s.cfg (.gbwriteInit b2 d tb), fill⟩) b2 d tb
  have hCrc := receive_gbwriteFrame_crc8 hd { s with rxQueue := rest } s.cfg 0x80 b2 tb fill
  have hWf : (Instr.gbwriteInit b2 d tb).wellFormed s.cfg = true := beq_iff_eq.mpr hd
  refine ⟨t, (transaction_of_delivered hValid hPhase hWf hQueue).trans hExec, hWait, hRest, ?_, hZero⟩
  exact hLog.trans (congrArg (fun b => s.txLog ++ [[b]]) hCrc)

/-! ### A long frame, then the GBREAD of a slot -/

/-- A window of one slot's size, read after a Receive: the frame where it reached the window, the draw in
the rest of a byte it filled partly, and the old bytes beyond (20_memory.md R49, R50). -/
theorem receive_showsFrameInSlot (s : State) (d : Delivery) (slot : Nat) :
    Reply.ShowsFrameInSlot ((receive s d).fb.readBytes slot 33) slot d s.fb := by
  have hByte {j : Nat} (hj : j < 33) :
      ((receive s d).fb.readBytes slot 33).getD j 0 = (receive s d).fb.read (slot + j) :=
    Memory.readBytes_getD _ _ hj _
  refine ⟨Memory.readBytes_length _ _ _, fun j hj hWhole => ?_, fun k hk hFrom hTo => ?_,
    fun i hFrom hTo hPartly hi => ?_, fun j hj hBeyond => ?_⟩
  · rw [hByte hj, ← State.frameByte_frame (receive s d) hWhole, receive_frame]
  · rw [hByte (by omega), show slot + (k / 8 - slot) = k / 8 by omega, receive_read_frameBit s d hk]
  · rw [hByte (by omega), show slot + (d.bits.length / 8 - slot) = d.bits.length / 8 by omega,
      receive_read_draw s d hPartly hi]
  · rw [hByte hj, receive_read_beyond s d (by unfold bytesReached; omega)]

/-- Two steps of a run receive a frame longer than every command's and drop it: the Receive is all that is
left of it (41_dispatch.md R95; 70_reset_and_hazards.md R178). -/
theorem runSteps_of_longFrame {s : State} {d : Delivery} {rest : List Delivery}
    (hValid : s.cfg.valid = true) (hPhase : s.phase = .wait) (hQueue : s.rxQueue = d :: rest)
    (hLong : 281 < d.bits.length) (hLimit : d.bits.length ≤ s.cfg.maxRxBits) (n : Nat) :
    runSteps (n + 2) s = runSteps n { receive { s with rxQueue := rest } d with phase := .wait } := by
  have hDrop := step_of_otherLength (s := receive { s with rxQueue := rest } d) hValid
    (receive_phase _ d) (by rw [receive_rxN]; omega)
  rw [runSteps_succ_of_next (step_of_delivery hValid hPhase hQueue hLimit), runSteps_succ_of_next hDrop]

/-- The GBREAD of a slot after a long frame: the frame's dispatch replies nothing, and the reply is the slot
as the frame's Receive left it, since the GBREAD's own reaches no slot. -/
theorem ReadsSlot.after_longFrame {slot : Nat} {i : Instr} (hReads : ReadsSlot slot i) (hSlot : 4 ≤ slot)
    {s : State} {long : Delivery} {fill : Byte} {rest : List Delivery} (hValid : s.cfg.valid = true)
    (hPhase : s.phase = .wait) (hLong : 281 < long.bits.length)
    (hLimit : long.bits.length ≤ s.cfg.maxRxBits)
    (hQueue : s.rxQueue = long :: ⟨encode s.cfg i, fill⟩ :: rest) :
    ∃ t r, runSteps 4 s = .next t ∧ t.txLog = s.txLog ++ [r] ∧ r.ShowsFrameInSlot slot long s.fb := by
  obtain ⟨t, hRun, hLog, -⟩ := hReads.runSteps_two hSlot hValid rfl rfl
    (s := { receive { s with rxQueue := ⟨encode s.cfg i, fill⟩ :: rest } long with phase := .wait })
  exact ⟨t, _, (runSteps_of_longFrame hValid hPhase hQueue hLong hLimit 2).trans hRun, hLog,
    receive_showsFrameInSlot _ long slot⟩

/-- Settles O45: GBREAD C0 reads the status slot, whose first bit is frame bit 384. -/
theorem longFrameDestroysTheStatusSlot : Obligations.LongFrameDestroysTheStatusSlot := by
  intro s long b2 tb f rest hValid hPhase hLong hLimit hQueue
  exact (gbreadC0_readsSlot b2 tb).after_longFrame (by decide) hValid hPhase (by omega) hLimit hQueue

/-- Settles O46: GBREAD F0 reads the peripheral slot, whose first bit is frame bit 648. -/
theorem longFrameDestroysThePeripheralSlot : Obligations.LongFrameDestroysThePeripheralSlot := by
  intro s long b2 tb f rest hValid hPhase hLong hLimit hQueue
  exact (gbreadF0_readsSlot b2 tb).after_longFrame (by decide) hValid hPhase (by omega) hLimit hQueue

end Sys2Proof.Machine
